-- ==== Sys2Proof/Word.lean ====
section
/-!
DEFINITION. The byte and the byte string of the serial sink and the display (R37, R63).
The block has no machine word of its own (R41): each register's width stands in `Machine/State.lean`.
-/

namespace Sys2Proof

/-- One byte of a serial line or of a display text. -/
abbrev Byte := BitVec 8

/-- A byte string, first byte sent first (R63). -/
abbrev Bytes := List Byte

end Sys2Proof
end

