-- ==== Sys2Proof/Config.lean ====
section
/-!
DEFINITION. The enumerations of R97 to R100, the fixed constants of R5, the record of the parameters that R5 marks
OPEN or decided (a run keeps them, and every statement about every state holds for every value of them), and the
opaque constants that stand for values the spec does not give.
-/

namespace Sys2Proof

/-- The feed rate of R27 and R97. -/
inductive Feed where
  | nano | micro | milli | full
  deriving DecidableEq, Repr

/-- The selected axis of R33 and R98. -/
inductive Axis where
  | x | y | z
  deriving DecidableEq, Repr

/-- The global safety flag `EMS_STATE` of R29. -/
inductive Interlock where
  | idle | engaged
  deriving DecidableEq, Repr

/-- The values of `DIR` and `DISP_DIR` (R22, R34, R100): no tick or neutral arrow, `+1`, `-1`. -/
inductive Sense where
  | neutral | plus | minus
  deriving DecidableEq, Repr

/-- The two variants of a command slot (R100, R175). -/
inductive Variant where
  | on | off
  deriving DecidableEq, Repr

/-- The four byte strings of a command slot record (R39). -/
inductive SlotField where
  | nameOn | commandOn | nameOff | commandOff
  deriving DecidableEq, Repr

/-- One `CommandSlot` record (R39). -/
structure Slot where
  nameOn : Bytes
  commandOn : Bytes
  nameOff : Bytes
  commandOff : Bytes
  deriving DecidableEq, Repr

/-- The parameters a model takes as arguments (R5, 92_eei_decisions.md "Parameters a model takes as arguments").
They are constant for a run (R39, R66): no operation writes them. -/
structure Params where
  /-- `Q_A_IS_MSB`: encoder line A is bit 1 of the sample (R90). -/
  qAIsMsb : Bool
  /-- `Q_PREV_RESET` (R20). -/
  qPrevReset : BitVec 2
  /-- `FEED_BIT_MICRO` (R94). -/
  feedBitMicro : Fin 16
  /-- `FEED_BIT_MILLI` (R94). -/
  feedBitMilli : Fin 16
  /-- `FEED_BIT_FULL` (R94). -/
  feedBitFull : Fin 16
  /-- `FEED_ACTIVE_LEVEL` (R96): the level of a selected feed bit. -/
  feedActiveLevel : Bool
  /-- `BTN_MASK_RESET`, range 0x000 to 0xFFF (R25). -/
  btnMaskReset : BitVec 12
  /-- `FEED_RESET` (R27). -/
  feedReset : Feed
  /-- `AXIS_RESET` (R33). -/
  axisReset : Axis
  /-- `EMS_RESET` (R29). -/
  emsReset : Interlock
  /-- `NEWLINE`, the line terminator on the serial sink (R107). -/
  newline : Bytes
  /-- `SLOT[0..11]` (R39). -/
  slots : Vector Slot 12
  /-- `WARN_TEXT` (R177). -/
  warnText : Bytes
  /-- The text of the red warning banner (R203). -/
  engageText : Bytes
  /-- The text of the green confirmation banner (R204). -/
  releaseText : Bytes
  deriving DecidableEq, Repr

namespace Config

/-- `DETENT_STEPS` (R5): the accumulator magnitude that commits a tick. -/
def detentSteps : Int := 4

/-- `EMS_GUARD_MS` (R5, R201). -/
def emsGuardMs : BitVec 32 := 100

/-- `EMS_RECHECK_MS` (R5, R205): a constraint on the environment's scheduling, read only by `Safety.recheckDue`. -/
def emsRecheckMs : BitVec 32 := 100

/-- `REFRESH_MS` (R5, R240, R273): "e.g." in the source and not enforced, so no operation reads it. -/
def refreshMs : Nat := 10

/-- The twelve slot numbers in ascending order (R7, R180). -/
def slotNumbers : List (Fin 12) := [0, 1, 2, 3, 4, 5, 6, 7, 8, 9, 10, 11]

/-- The strings of the command slots that the spec does not give (R39, N10). Log entry 4. -/
opaque slotText : Fin 12 → SlotField → Bytes

/-- `WARN_TEXT`, which the spec gives no default (R5, N11). Log entry 4. -/
opaque warnText : Bytes

/-- The red banner's text, which the spec gives no default (R5, N11). Log entry 4. -/
opaque engageText : Bytes

/-- The green banner's text, which the spec gives no default (R5, N11). Log entry 4. -/
opaque releaseText : Bytes

/-- Whether a move line built from `DIR` = 0 carries `+` (else `-`): R100 and R105 give no SIGN character for 0 and
no reachable state needs one (R22). A free value, one for each value of the state's counter `freeIx`. Log entry 5. -/
opaque freeSign : Nat → Bool

/-- A slot whose four strings the spec leaves open. -/
def openSlot (i : Fin 12) : Slot :=
  { nameOn := slotText i .nameOn, commandOn := slotText i .commandOn,
    nameOff := slotText i .nameOff, commandOff := slotText i .commandOff }

/-- The default slot table: the strings R39 gives (`$H`, `M3 S6000`, `M5`, the byte 0x18, `$X`), every other string open.
Log entry 4. -/
def defaultSlots : Vector Slot 12 :=
  #v[openSlot 0, openSlot 1, openSlot 2,
     { openSlot 3 with commandOn := [0x24, 0x48] },
     openSlot 4,
     { openSlot 5 with
        commandOn := [0x4D, 0x33, 0x20, 0x53, 0x36, 0x30, 0x30, 0x30], commandOff := [0x4D, 0x35] },
     { openSlot 6 with commandOn := [0x18] },
     { openSlot 7 with commandOn := [0x24, 0x58] },
     openSlot 8, openSlot 9, openSlot 10, openSlot 11]

/-- The defaults of R5. Log entries 1 to 4. -/
def defaults : Params :=
  { qAIsMsb := true, qPrevReset := 0b00#2,
    feedBitMicro := 12, feedBitMilli := 13, feedBitFull := 14, feedActiveLevel := false,
    btnMaskReset := 0xFFF#12, feedReset := .nano, axisReset := .x, emsReset := .idle,
    newline := [0x0A], slots := defaultSlots,
    warnText := warnText, engageText := engageText, releaseText := releaseText }

end Config
end Sys2Proof
end

