-- ==== Sys2Proof/Syntax.lean ====
section
/-!
DEFINITION. The rows of spec/opcode_table.json: the ten operations of R8 with their operands, the sixteen LUT index
entries of R131 to R146, the two kinds of stimulus that spell them, and the written syntax of R108.
-/

namespace Sys2Proof

/-- One constructor for each row of spec/opcode_table.json. An operand's type is its width, and R8 puts no other
constraint on it; a line level is `true` for high. -/
inductive Instr where
  /-- `RST` (R300). -/
  | rst
  /-- `QEDGE a b` (R130). -/
  | qedge (a b : Bool)
  /-- `XCHG` (R170). -/
  | xchg
  /-- `SCAN r` (R172). -/
  | scan (r : BitVec 16)
  /-- `EMSEDGE lvl` (R200). -/
  | emsedge (lvl : Bool)
  /-- `EMSCHK lvl` (R202). -/
  | emschk (lvl : Bool)
  /-- `AXEDGE xn yn zn` (R230). -/
  | axedge (xn yn zn : Bool)
  /-- `DISP` (R234). -/
  | disp
  /-- `REFR` (R240). -/
  | refr
  /-- `TADV d` (R269). -/
  | tadv (d : BitVec 28)
  /-- `LUT[0]` (R131): the decoding of index 0 by unit Q; so on to `LUT[15]` (R146). -/
  | lut0
  | lut1
  | lut2
  | lut3
  | lut4
  | lut5
  | lut6
  | lut7
  | lut8
  | lut9
  | lut10
  | lut11
  | lut12
  | lut13
  | lut14
  | lut15
  deriving DecidableEq, Repr

/-- One item of a run written as data: a 32-bit stimulus word (R101) or a 4-bit LUT index (R91), which the opcode
table lists beside the words and which "is not a stimulus word". -/
inductive Stimulus where
  | word (w : BitVec 32)
  | index (k : BitVec 4)
  deriving DecidableEq, Repr

/-- The context an operation runs in (R8, R270). -/
inductive Context where
  | environment | interrupt | task
  deriving DecidableEq, Repr

/-- The column "context" of R8's table. A LUT entry is a part of `QEDGE`, which runs in interrupt context. -/
def Instr.context : Instr → Context
  | .rst | .tadv _ => .environment
  | .scan _ | .emschk _ | .disp | .refr => .task
  | .qedge _ _ | .xchg | .emsedge _ | .axedge _ _ _ => .interrupt
  | .lut0 | .lut1 | .lut2 | .lut3 | .lut4 | .lut5 | .lut6 | .lut7 => .interrupt
  | .lut8 | .lut9 | .lut10 | .lut11 | .lut12 | .lut13 | .lut14 | .lut15 => .interrupt

/-- The units of R2, the refresh, and the environment's two operations (R8, column "unit"). -/
inductive UnitName where
  | q | s | e | a | d | refresh | all | time
  deriving DecidableEq, Repr

/-- The column "unit" of R8's table. -/
def Instr.unitName : Instr → UnitName
  | .rst => .all
  | .tadv _ => .time
  | .xchg | .scan _ => .s
  | .emsedge _ | .emschk _ => .e
  | .axedge _ _ _ => .a
  | .disp => .d
  | .refr => .refresh
  | .qedge _ _ => .q
  | .lut0 | .lut1 | .lut2 | .lut3 | .lut4 | .lut5 | .lut6 | .lut7 => .q
  | .lut8 | .lut9 | .lut10 | .lut11 | .lut12 | .lut13 | .lut14 | .lut15 => .q

/-- The row's mnemonic in spec/opcode_table.json. -/
def Instr.mnemonic : Instr → String
  | .rst => "RST"
  | .qedge _ _ => "QEDGE"
  | .xchg => "XCHG"
  | .scan _ => "SCAN"
  | .emsedge _ => "EMSEDGE"
  | .emschk _ => "EMSCHK"
  | .axedge _ _ _ => "AXEDGE"
  | .disp => "DISP"
  | .refr => "REFR"
  | .tadv _ => "TADV"
  | .lut0 => "LUT[0]"
  | .lut1 => "LUT[1]"
  | .lut2 => "LUT[2]"
  | .lut3 => "LUT[3]"
  | .lut4 => "LUT[4]"
  | .lut5 => "LUT[5]"
  | .lut6 => "LUT[6]"
  | .lut7 => "LUT[7]"
  | .lut8 => "LUT[8]"
  | .lut9 => "LUT[9]"
  | .lut10 => "LUT[10]"
  | .lut11 => "LUT[11]"
  | .lut12 => "LUT[12]"
  | .lut13 => "LUT[13]"
  | .lut14 => "LUT[14]"
  | .lut15 => "LUT[15]"

/-- The operands in the order R108 writes them, as numbers. -/
def Instr.operands : Instr → List Nat
  | .qedge a b => [a.toNat, b.toNat]
  | .scan r => [r.toNat]
  | .emsedge lvl => [lvl.toNat]
  | .emschk lvl => [lvl.toNat]
  | .axedge xn yn zn => [xn.toNat, yn.toNat, zn.toNat]
  | .tadv d => [d.toNat]
  | .rst | .xchg | .disp | .refr => []
  | .lut0 | .lut1 | .lut2 | .lut3 | .lut4 | .lut5 | .lut6 | .lut7 => []
  | .lut8 | .lut9 | .lut10 | .lut11 | .lut12 | .lut13 | .lut14 | .lut15 => []

/-- The written line of an operation (R108): the mnemonic, then its operands separated by spaces. -/
def Instr.written (i : Instr) : String :=
  i.operands.foldl (fun line n => line ++ " " ++ toString n) i.mnemonic

/-- The pseudo-operation `PRESS r` (R108). -/
def Instr.press (r : BitVec 16) : List Instr := [.xchg, .scan r]

/-- The pseudo-operation `DETENT+` (R108). -/
def Instr.detentPlus : List Instr := [.qedge true false, .qedge true true, .qedge false true, .qedge false false]

/-- The pseudo-operation `DETENT-` (R108). -/
def Instr.detentMinus : List Instr := [.qedge false true, .qedge true true, .qedge true false, .qedge false false]

end Sys2Proof
end

