-- ==== Sys2Proof/WellFormed.lean ====
section
/-!
DEFINITION. What a parameter record, an instruction and a stimulus must meet to be well-formed: the ranges R5 states
for the OPEN parameters, the operand widths of R8 (carried by the operand types), and the rows of
spec/opcode_table.json (R102, R103).
-/

namespace Sys2Proof

/-- The three feed-selector bits lie outside the twelve button bits (R5, R94: "distinct values in 12..15"). -/
def Params.feedBitsInRange (p : Params) : Bool :=
  12 ≤ p.feedBitMicro.val && 12 ≤ p.feedBitMilli.val && 12 ≤ p.feedBitFull.val

/-- The three feed-selector bits are distinct (R5, R94). -/
def Params.feedBitsDistinct (p : Params) : Bool :=
  p.feedBitMicro != p.feedBitMilli && p.feedBitMicro != p.feedBitFull && p.feedBitMilli != p.feedBitFull

/-- The parameter record is one R5 admits. -/
def Params.wellFormed (p : Params) : Bool := p.feedBitsInRange && p.feedBitsDistinct

/-- A row of spec/opcode_table.json whose format is STIM32. -/
structure WordRow where
  mnemonic : String
  pattern : BitVec 32
  mask : BitVec 32
  deriving DecidableEq, Repr

/-- The ten STIM32 rows of spec/opcode_table.json (R102). -/
def wordRows : List WordRow :=
  [⟨"RST", 0x00000000, 0xFFFFFFFF⟩, ⟨"QEDGE", 0x10000000, 0xFFFFFFFC⟩, ⟨"XCHG", 0x20000000, 0xFFFFFFFF⟩,
   ⟨"SCAN", 0x30000000, 0xFFFF0000⟩, ⟨"EMSEDGE", 0x40000000, 0xFFFFFFFE⟩, ⟨"EMSCHK", 0x50000000, 0xFFFFFFFE⟩,
   ⟨"AXEDGE", 0x60000000, 0xFFFFFFF8⟩, ⟨"DISP", 0x70000000, 0xFFFFFFFF⟩, ⟨"REFR", 0x80000000, 0xFFFFFFFF⟩,
   ⟨"TADV", 0x90000000, 0xF0000000⟩]

/-- The sixteen QIDX4 rows of spec/opcode_table.json, row `k` at position `k`. -/
def indexRows : List String :=
  ["LUT[0]", "LUT[1]", "LUT[2]", "LUT[3]", "LUT[4]", "LUT[5]", "LUT[6]", "LUT[7]",
   "LUT[8]", "LUT[9]", "LUT[10]", "LUT[11]", "LUT[12]", "LUT[13]", "LUT[14]", "LUT[15]"]

/-- The word matches the row's fixed bits. -/
def WordRow.admits (row : WordRow) (w : BitVec 32) : Bool := (w &&& row.mask) == row.pattern

/-- A word is well-formed when some row of the table admits it (R103); every 4-bit index is legal (R104 a). -/
def Stimulus.wellFormed : Stimulus → Bool
  | .word w => wordRows.any fun row => row.admits w
  | .index _ => true

/-- Every operand of its type's width is legal (R8, R104), so no instruction of the inductive is ill-formed: what could
be ill-formed is the stimulus that spells it and the parameter record, each checked above. -/
def Instr.wellFormed : Instr → Bool
  | .rst | .xchg | .disp | .refr => true
  | .qedge _ _ | .scan _ | .emsedge _ | .emschk _ | .axedge _ _ _ | .tadv _ => true
  | .lut0 | .lut1 | .lut2 | .lut3 | .lut4 | .lut5 | .lut6 | .lut7 => true
  | .lut8 | .lut9 | .lut10 | .lut11 | .lut12 | .lut13 | .lut14 | .lut15 => true

end Sys2Proof
end

