-- ==== Sys2Proof/Decode.lean ====
section
/-!
DEFINITION. The decoder of a stimulus (R101 to R103 for a word, R91 for a LUT index), total and rejecting by name, and
the encoder written from the same tables.
-/

namespace Sys2Proof

/-- Why a word spells no operation (R103). -/
inductive DecodeError where
  /-- `OP` is 0xA to 0xF. -/
  | reservedOp
  /-- A payload bit that R102 requires to be 0 is 1. -/
  | nonzeroPayload
  deriving DecidableEq, Repr

/-- The operation code `W[31:28]` (R101). -/
def opField (w : BitVec 32) : BitVec 4 := w.extractLsb' 28 4

/-- The payload bits from `lo` up to bit 27 are all 0. -/
def payloadZeroFrom (lo : Nat) (w : BitVec 32) : Bool := (w.extractLsb' lo (28 - lo)) == 0#(28 - lo)

/-- Accept `i` when the payload bits from `lo` up are 0 (R102). -/
def acceptIfZeroFrom (lo : Nat) (w : BitVec 32) (i : Instr) : Except DecodeError Instr :=
  if payloadZeroFrom lo w then .ok i else .error .nonzeroPayload

/-- The decoder of a stimulus word (R102, R103). -/
def decodeWord (w : BitVec 32) : Except DecodeError Instr :=
  match (opField w).toNat with
  | 0 => acceptIfZeroFrom 0 w .rst
  | 1 => acceptIfZeroFrom 2 w (.qedge (w.getLsbD 1) (w.getLsbD 0))
  | 2 => acceptIfZeroFrom 0 w .xchg
  | 3 => acceptIfZeroFrom 16 w (.scan (w.extractLsb' 0 16))
  | 4 => acceptIfZeroFrom 1 w (.emsedge (w.getLsbD 0))
  | 5 => acceptIfZeroFrom 1 w (.emschk (w.getLsbD 0))
  | 6 => acceptIfZeroFrom 3 w (.axedge (w.getLsbD 0) (w.getLsbD 1) (w.getLsbD 2))
  | 7 => acceptIfZeroFrom 0 w .disp
  | 8 => acceptIfZeroFrom 0 w .refr
  | 9 => .ok (.tadv (w.extractLsb' 0 28))
  | _ => .error .reservedOp

/-- The table entry a 4-bit index selects (R91, R92): every index is legal (R104 a). -/
def decodeIndex (k : BitVec 4) : Instr :=
  match k.toNat with
  | 0 => .lut0
  | 1 => .lut1
  | 2 => .lut2
  | 3 => .lut3
  | 4 => .lut4
  | 5 => .lut5
  | 6 => .lut6
  | 7 => .lut7
  | 8 => .lut8
  | 9 => .lut9
  | 10 => .lut10
  | 11 => .lut11
  | 12 => .lut12
  | 13 => .lut13
  | 14 => .lut14
  | _ => .lut15

/-- The decoder of one item of a run. -/
def decode : Stimulus → Except DecodeError Instr
  | .word w => decodeWord w
  | .index k => .ok (decodeIndex k)

/-- The word with operation code `op` in bits 31:28 and `payload` in bits 27:0 (R101). -/
def makeWord (op : BitVec 4) (payload : BitVec 28) : Stimulus :=
  .word ((op.setWidth 32 <<< 28) ||| payload.setWidth 32)

/-- A level as bit 0 of a payload. -/
def levelBit (b : Bool) : BitVec 28 := (BitVec.ofBool b).setWidth 28

/-- The encoder, from the tables of R102 and of R92. -/
def encode : Instr → Stimulus
  | .rst => makeWord 0x0 0
  | .qedge a b => makeWord 0x1 ((levelBit a <<< 1) ||| levelBit b)
  | .xchg => makeWord 0x2 0
  | .scan r => makeWord 0x3 (r.setWidth 28)
  | .emsedge lvl => makeWord 0x4 (levelBit lvl)
  | .emschk lvl => makeWord 0x5 (levelBit lvl)
  | .axedge xn yn zn => makeWord 0x6 ((levelBit zn <<< 2) ||| (levelBit yn <<< 1) ||| levelBit xn)
  | .disp => makeWord 0x7 0
  | .refr => makeWord 0x8 0
  | .tadv d => makeWord 0x9 d
  | .lut0 => .index 0
  | .lut1 => .index 1
  | .lut2 => .index 2
  | .lut3 => .index 3
  | .lut4 => .index 4
  | .lut5 => .index 5
  | .lut6 => .index 6
  | .lut7 => .index 7
  | .lut8 => .index 8
  | .lut9 => .index 9
  | .lut10 => .index 10
  | .lut11 => .index 11
  | .lut12 => .index 12
  | .lut13 => .index 13
  | .lut14 => .index 14
  | .lut15 => .index 15

/-- The stimulus whose bits are `w`, numbered as spec/opcode_table.json numbers them: a QIDX4 row fits in one byte and
a STIM32 row has 32 bits. Nothing when `w` has a bit outside the row's format. -/
def tableStimulus (nbits w : Nat) : Option Stimulus :=
  if nbits ≤ 8 then
    if w < 16 then some (.index (BitVec.ofNat 4 w)) else none
  else
    if w < 4294967296 then some (.word (BitVec.ofNat 32 w)) else none

/-- The instruction the decoder reads from a table row's bits; nothing where it refuses. -/
def decodeTableWord (nbits w : Nat) : Option Instr :=
  match tableStimulus nbits w with
  | none => none
  | some x => (decode x).toOption

end Sys2Proof
end

