-- ==== Sys2Proof/Machine/State.lean ====
section
/-!
DEFINITION. The state record of the block (R20 to R37), the model's own fields beside it (the stimulus that the
environment still has to give, the parameters, the counter of the free value, the ghosts of R44 and R205), the reasons
a step can stop, and the reset state.
-/

namespace Sys2Proof.Machine

/-- The position accumulators `POS[X]`, `POS[Y]`, `POS[Z]` in thousandths of a machine unit (R35). -/
structure Position where
  x : Int
  y : Int
  z : Int
  deriving DecidableEq, Repr

/-- The events of the output trace (R37). -/
inductive Event where
  /-- `SER(bytes)`: one line written to the serial sink, terminator included. -/
  | ser (line : Bytes)
  /-- `DSP_FIRED(i, v)`: the display update after slot `i` fired variant `v` (R176). -/
  | fired (i : Fin 12) (v : Variant)
  /-- `DSP_WARN`: the warning message of a suppressed press (R177). -/
  | warn
  /-- `DSP_EMS(e)`: the red banner for `true` (e = 1), the green banner for `false` (R203, R204). -/
  | ems (e : Bool)
  /-- `DSP_FRAME(axis, feed, x, y, z, dir, ems)`: one composite refresh (R240). -/
  | frame (axis : Axis) (feed : Feed) (x y z : Int) (dir : Sense) (ems : Interlock)
  deriving DecidableEq, Repr

/-- The model-side counters of R44 and the ghost timestamp of R205: no operation of the block reads them. -/
structure Ghost where
  /-- `N_COMMIT`: commits since reset. -/
  nCommit : Nat
  /-- `N_DISP`: `DISP` operations that processed a tick since reset. -/
  nDisp : Nat
  /-- Fires of each slot since reset. -/
  fires : Vector Nat 12
  /-- `NOW` at the `EMSEDGE` that last set `EMS_PEND` from 0 to 1 (R205). -/
  emsWakeTs : BitVec 32
  deriving DecidableEq, Repr

/-- The machine's state. The fields from `prev` to `out` are the spec's, in the order of the summary table of
10_state.md; the others are the model's. -/
structure State where
  /-- `PREV` (R20). -/
  prev : BitVec 2
  /-- `ACC` (R21), two's complement. -/
  acc : BitVec 4
  /-- `DIR` (R22). -/
  dir : Sense
  /-- `TICK_PEND` (R23). -/
  tickPend : Bool
  /-- `BTN_MASK` (R25): 1 = released. -/
  btnMask : BitVec 16
  /-- `TOGGLE` (R26). -/
  toggle : BitVec 12
  /-- `FEED` (R27). -/
  feed : Feed
  /-- `SCAN_PEND` (R28). -/
  scanPend : Bool
  /-- `EMS_STATE` (R29). -/
  emsState : Interlock
  /-- `EMS_LAST` (R30). -/
  emsLast : Bool
  /-- `EMS_LAST_TS` (R31). -/
  emsLastTs : BitVec 32
  /-- `EMS_PEND` (R32). -/
  emsPend : Bool
  /-- `AXIS` (R33). -/
  axis : Axis
  /-- `DISP_DIR` (R34). -/
  dispDir : Sense
  /-- `POS` (R35). -/
  pos : Position
  /-- `NOW` (R36), milliseconds. -/
  now : BitVec 32
  /-- `OUT` (R37), oldest event first. -/
  out : List Event
  /-- The parameters of the run (R5, R39), which no operation writes. Log entry 1. -/
  params : Params
  /-- What the environment still has to give of the run (R9, R101), next item first. Log entry 6. -/
  stim : List Stimulus
  /-- The counter whose values the free SIGN character is read at. Log entry 5. -/
  freeIx : Nat
  /-- The ghosts of R44 and R205. Log entry 7. -/
  ghost : Ghost
  deriving DecidableEq, Repr

/-- The block raises no exception and has no faulting state (R260): a step never faults, so there is no constructor.
Safe: no claim can rest on a fault that does not exist. -/
inductive Fault
  deriving DecidableEq, Repr

/-- Why a step refuses. Each constructor but the first is a case in which the spec says that the run has no such step
(R103, R69); none of them changes the state. -/
inductive Refusal where
  /-- Raised by `exec` for an instruction that has no meaning yet (none, in this model). Safe. -/
  | notModelled (mnemonic : String)
  /-- Raised by `step` when the environment gives no further operation (R9, R78). Safe: the run ends there. -/
  | noStimulus
  /-- Raised by `step` for a word that spells no operation (R103). Safe: a model refuses the run. -/
  | badWord (e : DecodeError)
  /-- Raised by `SCAN` with `SCAN_PEND` = 0 (R171). Safe: the run has no such step. -/
  | scanNotEnabled
  /-- Raised by `EMSCHK` with `EMS_PEND` = 0 (R202). Safe: the run has no such step. -/
  | emschkNotEnabled
  /-- Raised by `DISP` with `TICK_PEND` = 0 (R233). Safe: the run has no such step. -/
  | dispNotEnabled
  /-- Raised by `LUT[k]` when bits 3:2 of `k` are not `PREV`, so that unit Q cannot form that index (R91).
  Safe: the run has no such step. -/
  | indexNotFormed
  deriving DecidableEq, Repr

/-- The ghosts at reset: zero. -/
def Ghost.zero : Ghost :=
  { nCommit := 0, nDisp := 0, fires := #v[0, 0, 0, 0, 0, 0, 0, 0, 0, 0, 0, 0], emsWakeTs := 0 }

/-- The reset state for the parameters `p` (R300), with no stimulus given yet. -/
def State.resetWith (p : Params) : State :=
  { prev := p.qPrevReset, acc := 0, dir := .neutral, tickPend := false,
    btnMask := p.btnMaskReset.setWidth 16, toggle := 0, feed := p.feedReset, scanPend := false,
    emsState := p.emsReset, emsLast := p.emsReset == .idle, emsLastTs := 0, emsPend := false,
    axis := p.axisReset, dispDir := .neutral, pos := { x := 0, y := 0, z := 0 }, now := 0, out := [],
    params := p, stim := [], freeIx := 0, ghost := Ghost.zero }

/-- The machine right after reset with the defaults of R5 (R300). -/
def State.reset : State := State.resetWith Config.defaults

end Sys2Proof.Machine
end

