-- ==== Sys2Proof/Machine/Operands.lean ====
section
/-!
DEFINITION. The operand and output formats of 30_encoding.md: the encoder sample and the LUT index, the step table,
the derived masks of the extender register, the feed decode, the enum codes, and the serial lines.
-/

namespace Sys2Proof.Machine

/-! ## Unit Q -/

/-- Two levels as one 2-bit value, `hi` in bit 1 (R90). -/
def levelPair (hi lo : Bool) : BitVec 2 := BitVec.ofBool hi ++ BitVec.ofBool lo

/-- The encoder sample `s` (R90): `{a, b}`, or `{b, a}` when `Q_A_IS_MSB` is false. -/
def sample (p : Params) (a b : Bool) : BitVec 2 := if p.qAIsMsb then levelPair a b else levelPair b a

/-- The LUT index `{PREV, s}` (R91). -/
def lutIndex (prev s : BitVec 2) : BitVec 4 := prev ++ s

/-- The step table, entry 0 first (R92). -/
def stepTable : List Int := [0, -1, 1, 0, 1, 0, 0, -1, -1, 0, 0, 1, 0, 1, -1, 0]

/-- `LUT[idx]` (R92). -/
def lut (idx : BitVec 4) : Int := stepTable.getD idx.toNat 0

/-- The classes of a LUT index (R93). -/
inductive IndexClass where
  | unchanged | positive | negative | invalid
  deriving DecidableEq, Repr

/-- The class of the index `{prev, s}` (R93): by how many bits differ, then by the sign of the entry. -/
def indexClass (prev s : BitVec 2) : IndexClass :=
  if prev = s then .unchanged
  else if prev = ~~~s then .invalid
  else if 0 < lut (lutIndex prev s) then .positive
  else .negative

/-- `sign(v)` (R6) as the stored value of `DIR` (R100). -/
def signSense (v : Int) : Sense := if 0 < v then .plus else if v < 0 then .minus else .neutral

/-- The integer a stored `DIR` or `DISP_DIR` stands for (R100). -/
def senseInt : Sense → Int
  | .neutral => 0
  | .plus => 1
  | .minus => -1

/-! ## Unit S -/

/-- `cur` (R95): the new level mask, 1 = released. -/
def curMask (r : BitVec 16) : BitVec 16 := (r.extractLsb' 0 12).setWidth 16

/-- `pressed` (R95): 1 = pressed. -/
def pressedMask (r : BitVec 16) : BitVec 16 := ~~~(curMask r) &&& 0x0FFF#16

/-- `changed` (R95): the difference from the stored mask. -/
def changedMask (old r : BitVec 16) : BitVec 16 := (old ^^^ curMask r) &&& 0x0FFF#16

/-- `newly` (R95, R172): the press edges. -/
def pressEdges (old r : BitVec 16) : BitVec 16 := old &&& ~~~(curMask r) &&& 0x0FFF#16

/-- The release edges (R95, R182), which have no effect besides the mask update. -/
def releaseEdges (old r : BitVec 16) : BitVec 16 := changedMask old r &&& curMask r

/-- The feed-rate decode (R96, R173). -/
def feedDecode (p : Params) (r : BitVec 16) : Feed :=
  if r.getLsbD p.feedBitFull.val = p.feedActiveLevel then .full
  else if r.getLsbD p.feedBitMilli.val = p.feedActiveLevel then .milli
  else if r.getLsbD p.feedBitMicro.val = p.feedActiveLevel then .micro
  else .nano

/-- The variant a toggle bit selects (R175): 0 = on, 1 = off. -/
def variantOf (bit : Bool) : Variant := if bit then .off else .on

/-- `cmd(i, v)` (R172). -/
def slotCommand (p : Params) (i : Fin 12) : Variant → Bytes
  | .on => (p.slots[i]).commandOn
  | .off => (p.slots[i]).commandOff

/-- The name of slot `i`'s variant `v`, the label `DSP_FIRED(i, v)` shows (R176). -/
def slotName (p : Params) (i : Fin 12) : Variant → Bytes
  | .on => (p.slots[i]).nameOn
  | .off => (p.slots[i]).nameOff

/-- `TOGGLE` with bit `i` set to `b`. -/
def writeToggle (t : BitVec 12) (i : Fin 12) (b : Bool) : BitVec 12 :=
  if b then t ||| (1#12 <<< i.val) else t &&& ~~~(1#12 <<< i.val)

/-! ## Unit E -/

/-- The level of the EMS line that stands for an interlock state (R30, R99): high = released. -/
def stableLevel : Interlock → Bool
  | .idle => true
  | .engaged => false

/-- The interlock state a confirmed line level gives (R99, R202): low = engaged. -/
def interlockOf (lvl : Bool) : Interlock := if lvl then .idle else .engaged

/-- `elapsed` (R200, R201): the time since the last accepted transition, modulo 2^32. -/
def elapsedMs (now ts : BitVec 32) : BitVec 32 := now - ts

/-- The guard test (R201), the bound included. -/
def guardPassed (now ts : BitVec 32) : Bool := decide (Config.emsGuardMs.toNat ≤ (elapsedMs now ts).toNat)

/-! ## Units A and D -/

/-- The axis an `AXEDGE` accepts (R230 to R232): the first low line in the order X, Y, Z, or none. -/
def axisSelect (xn yn zn : Bool) : Option Axis :=
  if xn = false then some .x
  else if yn = false then some .y
  else if zn = false then some .z
  else none

/-- `feed_milli` (R97): the feed step in thousandths. -/
def feedMilli : Feed → Int
  | .nano => 1
  | .micro => 10
  | .milli => 100
  | .full => 1000

/-- MAGNITUDE of a move line (R97, R105): `0.001000`, `0.010000`, `0.100000`, `1.000000`. -/
def magnitude : Feed → Bytes
  | .nano => [0x30, 0x2E, 0x30, 0x30, 0x31, 0x30, 0x30, 0x30]
  | .micro => [0x30, 0x2E, 0x30, 0x31, 0x30, 0x30, 0x30, 0x30]
  | .milli => [0x30, 0x2E, 0x31, 0x30, 0x30, 0x30, 0x30, 0x30]
  | .full => [0x31, 0x2E, 0x30, 0x30, 0x30, 0x30, 0x30, 0x30]

/-- AXIS character of a move line (R98). -/
def axisChar : Axis → Byte
  | .x => 0x58
  | .y => 0x59
  | .z => 0x5A

/-- SIGN character of a move line (R100). For `DIR` = 0, which no reachable `DISP` reads (R22), it is one of the two
characters of R105 and which one is the free value `Config.freeSign ix`. DESIGN CHOICE, log entry 5. -/
def signChar (ix : Nat) : Sense → Byte
  | .plus => 0x2B
  | .minus => 0x2D
  | .neutral => if Config.freeSign ix then 0x2B else 0x2D

/-- The fixed head `G21G91` of a move line (R105). -/
def moveHead : Bytes := [0x47, 0x32, 0x31, 0x47, 0x39, 0x31]

/-- `MOVE_SUFFIX`, the text `F2000` (R5, R105). -/
def moveSuffix : Bytes := [0x46, 0x32, 0x30, 0x30, 0x30]

/-- The relative-move line (R105, R234). -/
def moveLine (p : Params) (axis : Axis) (sign : Byte) (feed : Feed) : Bytes :=
  moveHead ++ [axisChar axis, sign] ++ magnitude feed ++ moveSuffix ++ p.newline

/-- The emergency cancel sequence (R106). -/
def cancelLine (p : Params) : Bytes := [0x21, 0x18] ++ p.newline

/-- A slot command line (R107). -/
def commandLine (p : Params) (i : Fin 12) (v : Variant) : Bytes := slotCommand p i v ++ p.newline

/-! ## Stored codes (R97 to R100) -/

/-- The 2-bit code of `FEED` (R97). -/
def feedCode : Feed → BitVec 2
  | .nano => 0
  | .micro => 1
  | .milli => 2
  | .full => 3

/-- The 2-bit code of `AXIS` (R98). -/
def axisCode : Axis → BitVec 2
  | .x => 0
  | .y => 1
  | .z => 2

/-- The 2-bit code of `DIR` and `DISP_DIR` (R100). -/
def senseCode : Sense → BitVec 2
  | .neutral => 0b00
  | .plus => 0b01
  | .minus => 0b11

/-- The 1-bit code of `EMS_STATE` (R100). -/
def interlockCode : Interlock → BitVec 1
  | .idle => 0
  | .engaged => 1

/-- The 1-bit code of a variant, equal to the toggle bit that selects it (R100). -/
def variantCode : Variant → BitVec 1
  | .on => 0
  | .off => 1

/-! ## What the display shows -/

/-- The text a display event shows, where the spec says which text it is (R176, R177, R203, R204). -/
def eventText (p : Params) : Event → Option Bytes
  | .fired i v => some (slotName p i v)
  | .warn => some p.warnText
  | .ems e => some (if e then p.engageText else p.releaseText)
  | .ser _ => none
  | .frame _ _ _ _ _ _ _ => none

/-- The direction indicator of one axis in a frame (R241): `DISP_DIR` for the selected axis, else neutral. -/
def arrowOf (selected : Axis) (dir : Sense) (a : Axis) : Sense := if a = selected then dir else .neutral

end Sys2Proof.Machine
end

