-- ==== Sys2Proof/Machine/Flags.lean ====
section
/-!
DEFINITION. The three pending flags (R69), which are the block's only flags: waking, clearing, and the enabling of an
operation. No arithmetic flag exists (R147).
-/

namespace Sys2Proof.Machine

/-- The pending flags (R23, R28, R32). -/
inductive PendFlag where
  | tick | scan | ems
  deriving DecidableEq, Repr

/-- The value of a pending flag. -/
def pending (f : PendFlag) (s : State) : Bool :=
  match f with
  | .tick => s.tickPend
  | .scan => s.scanPend
  | .ems => s.emsPend

/-- `wake(F)` (R69): F becomes 1, whether it was 0 or 1. -/
def wake (f : PendFlag) (s : State) : State :=
  match f with
  | .tick => { s with tickPend := true }
  | .scan => { s with scanPend := true }
  | .ems => { s with emsPend := true }

/-- The first action of a task operation (R69): its flag becomes 0. -/
def clearPend (f : PendFlag) (s : State) : State :=
  match f with
  | .tick => { s with tickPend := false }
  | .scan => { s with scanPend := false }
  | .ems => { s with emsPend := false }

/-- The flag a task operation waits on (R69, R171, R202, R233); `REFR` and the other operations wait on none. -/
def flagOf : Instr → Option PendFlag
  | .scan _ => some .scan
  | .emschk _ => some .ems
  | .disp => some .tick
  | .rst | .qedge _ _ | .xchg | .emsedge _ | .axedge _ _ _ | .refr | .tadv _ => none
  | .lut0 | .lut1 | .lut2 | .lut3 | .lut4 | .lut5 | .lut6 | .lut7 => none
  | .lut8 | .lut9 | .lut10 | .lut11 | .lut12 | .lut13 | .lut14 | .lut15 => none

/-- The previous sample a LUT entry's index carries in bits 3:2 (R91); none for an operation. -/
def indexPrev (i : Instr) : Option (BitVec 2) :=
  match encode i with
  | .index k => some (k.extractLsb' 2 2)
  | .word _ => none

/-- An operation is enabled when its pending flag is 1 (R69), and always when it waits on none (R262); a LUT entry when
its index's upper half is `PREV` (R91). -/
def enabled (i : Instr) (s : State) : Bool :=
  match flagOf i, indexPrev i with
  | some f, _ => pending f s
  | none, some p => decide (s.prev = p)
  | none, none => true

end Sys2Proof.Machine
end

