-- ==== Sys2Proof/Machine/Ops.lean ====
section
/-!
DEFINITION. The shared operations over the state: emitting an event, accumulating a step and committing a tick,
handling one press edge, dispatching a tick, selecting an axis, accepting an interlock transition, resetting, and
taking the next stimulus.

The block has no addressable memory (R60) and raises no exceptions (R260): there is no memory operation and no
exception entry or return to define.
-/

namespace Sys2Proof.Machine

/-- `emit E` (R7): append the event to `OUT`. -/
def emit (e : Event) (s : State) : State := { s with out := s.out ++ [e] }

/-! ## Unit Q -/

/-- Commit a tick (R148): the direction is the sign of the sum, `ACC` returns to 0, the dispatcher is woken. -/
def commitTick (acc1 : Int) (s : State) : State :=
  wake .tick
    { s with dir := signSense acc1, acc := 0, ghost := { s.ghost with nCommit := s.ghost.nCommit + 1 } }

/-- Take a changed sample `smp` whose step is `step` (R130, R147): advance `PREV`, add, and commit at +4 or -4. -/
def accumulate (smp : BitVec 2) (step : Int) (s : State) : State :=
  let acc1 := s.acc.toInt + step
  if acc1 = Config.detentSteps ∨ acc1 = -Config.detentSteps then
    commitTick acc1 { s with prev := smp }
  else
    { s with prev := smp, acc := BitVec.ofInt 4 acc1 }

/-- Decode a sample against `PREV` through the step table (R130): an unchanged sample writes nothing (R149). -/
def takeSample (smp : BitVec 2) (s : State) : State :=
  if smp = s.prev then s else accumulate smp (lut (lutIndex s.prev smp)) s

/-- What unit Q does when it decodes the index `{frm, smp}` whose table entry is `step` (R131 to R146). The index is
formed only when `PREV` is `frm` (R91); elsewhere there is no such step. Log entry 8. -/
def decodeEntry (frm smp : BitVec 2) (step : Int) (s : State) : Host.Outcome State Fault Refusal :=
  if s.prev = frm then .next (if smp = frm then s else accumulate smp step s)
  else .refused .indexNotFormed

/-! ## Unit S -/

/-- Fire slot `i` (R176): the command line, the toggle flip, the display update, in this order. -/
def fireSlot (i : Fin 12) (s : State) : State :=
  let bit := s.toggle[i.val]
  let v := variantOf bit
  emit (.fired i v)
    { emit (.ser (commandLine s.params i v)) s with
      toggle := writeToggle s.toggle i (!bit)
      ghost := { s.ghost with fires := s.ghost.fires.set i (s.ghost.fires[i] + 1) } }

/-- Handle a press edge of slot `i` with the interlock read as `eng` (R176, R177). -/
def handlePress (eng : Bool) (i : Fin 12) (s : State) : State :=
  if eng then emit .warn s else fireSlot i s

/-- The loop of `SCAN` over the slots (R172, R180): each slot of `slots` whose bit of `newly` is 1, in order. -/
def handlePresses (eng : Bool) (newly : BitVec 16) (slots : List (Fin 12)) (s : State) : State :=
  slots.foldl (fun t i => if newly.getLsbD i.val then handlePress eng i t else t) s

/-- `FEED <- f` (R173). -/
def writeFeed (f : Feed) (s : State) : State := { s with feed := f }

/-- `BTN_MASK <- m` (R178). -/
def writeLevels (m : BitVec 16) (s : State) : State := { s with btnMask := m }

/-- The body of `SCAN` after its flag is cleared (R172, R173, R178, R179). -/
def scanBody (r : BitVec 16) (s : State) : State :=
  let eng := s.emsState == .engaged
  let newly := pressEdges s.btnMask r
  writeLevels (curMask r) (handlePresses eng newly Config.slotNumbers (writeFeed (feedDecode s.params r) s))

/-! ## Unit E -/

/-- The wake of the interlock task by `EMSEDGE` (R200), with the ghost timestamp of R205. Log entry 7. -/
def wakeInterlock (s : State) : State :=
  wake .ems
    { s with ghost := { s.ghost with emsWakeTs := if s.emsPend then s.ghost.emsWakeTs else s.now } }

/-- Accept a confirmed transition of the EMS line to `lvl` (R202 to R204). -/
def acceptTransition (lvl : Bool) (s : State) : State :=
  let t := { s with emsLast := lvl, emsLastTs := s.now, emsState := interlockOf lvl }
  if lvl then emit (.ems false) t
  else emit (.ems true) (emit (.ser (cancelLine s.params)) t)

/-! ## Units A and D -/

/-- Accept an axis (R230): the direction indicator returns to neutral. -/
def acceptAxis (a : Axis) (s : State) : State := { s with axis := a, dispDir := .neutral }

/-- `POS[a] <- POS[a] + d` (R237). -/
def movePosition (a : Axis) (d : Int) (p : Position) : Position :=
  match a with
  | .x => { p with x := p.x + d }
  | .y => { p with y := p.y + d }
  | .z => { p with z := p.z + d }

/-- The counter of the free SIGN character moves only when that character was read. Log entry 5. -/
def nextFreeIx (dir : Sense) (ix : Nat) : Nat := if dir = .neutral then ix + 1 else ix

/-- Process a tick in the IDLE state (R234, R237, R238). -/
def dispatchTick (s : State) : State :=
  { emit (.ser (moveLine s.params s.axis (signChar s.freeIx s.dir) s.feed)) s with
    pos := movePosition s.axis (senseInt s.dir * feedMilli s.feed) s.pos
    dispDir := s.dir
    freeIx := nextFreeIx s.dir s.freeIx
    ghost := { s.ghost with nDisp := s.ghost.nDisp + 1 } }

/-! ## The environment -/

/-- `RST` (R300): every state element takes its reset value; the parameters, the rest of the stimulus and the counter
of the free value are the model's and stay. -/
def resetAll (s : State) : State :=
  { s with
    prev := s.params.qPrevReset, acc := 0, dir := .neutral, tickPend := false,
    btnMask := s.params.btnMaskReset.setWidth 16, toggle := 0, feed := s.params.feedReset, scanPend := false,
    emsState := s.params.emsReset, emsLast := stableLevel s.params.emsReset, emsLastTs := 0, emsPend := false,
    axis := s.params.axisReset, dispDir := .neutral, pos := { x := 0, y := 0, z := 0 }, now := 0, out := [],
    ghost := Ghost.zero }

/-- `NOW <- (NOW + d) mod 2^32` (R269). -/
def advanceTime (d : BitVec 28) (s : State) : State := { s with now := s.now + d.setWidth 32 }

/-- The next stimulus and the state without it (R9, R101): what stands here for a fetch. Log entry 6. -/
def fetch (s : State) : Option (Stimulus × State) :=
  match s.stim with
  | [] => none
  | x :: rest => some (x, { s with stim := rest })

/-- What the instruction that follows needs in order to be the block's next operation (R40): a task operation its
pending flag at 1 (R69), a LUT entry its index's upper half in `PREV` (R91). Log entry 9. -/
def selectNext (i : Instr) (s : State) : State :=
  match flagOf i, indexPrev i with
  | some f, _ => wake f s
  | none, some p => { s with prev := p }
  | none, none => s

/-- Place a stimulus where `fetch` reads next; when it spells an instruction, that instruction is made the block's next
operation. Log entry 9. -/
def placeNext (x : Stimulus) (s : State) : State :=
  let t := { s with stim := x :: s.stim }
  match decode x with
  | .ok i => selectNext i t
  | .error _ => t

/-- `placeNext` for the bits of a table row; a word that fits no row's format changes nothing. -/
def placeTableWord (nbits w : Nat) (s : State) : State :=
  match tableStimulus nbits w with
  | some x => placeNext x s
  | none => s

/-! ## Views of the output trace -/

/-- The lines on the serial sink, in order (R37, R276). -/
def serialLines : List Event → List Bytes
  | [] => []
  | .ser line :: rest => line :: serialLines rest
  | .fired _ _ :: rest => serialLines rest
  | .warn :: rest => serialLines rest
  | .ems _ :: rest => serialLines rest
  | .frame _ _ _ _ _ _ _ :: rest => serialLines rest

/-- The byte stream on the serial sink (R63): each line whole, first byte first. -/
def serialBytes (out : List Event) : Bytes := (serialLines out).flatten

end Sys2Proof.Machine
end

