-- ==== Sys2Proof/Machine/AxisDispatch.lean ====
section
/-!
DEFINITION. Units A and D and the refresh: the meanings of `AXEDGE`, `DISP` and `REFR` (43_axis_dispatch_refresh.md).
-/

namespace Sys2Proof.Machine

/-- `AXEDGE xn yn zn` (R230 to R232): always enabled. The priority among several low lines is R231's. Log entry 10. -/
def execAxedge (xn yn zn : Bool) (s : State) : Host.Outcome State Fault Refusal :=
  match axisSelect xn yn zn with
  | some a => .next (acceptAxis a s)
  | none => .next s

/-- `DISP` (R233 to R235): enabled when `TICK_PEND` = 1, which it clears first; while ENGAGED the tick is dropped. -/
def execDisp (s : State) : Host.Outcome State Fault Refusal :=
  if pending .tick s then
    let t := clearPend .tick s
    .next (if t.emsState = .idle then dispatchTick t else t)
  else .refused .dispNotEnabled

/-- `REFR` (R240): always enabled; one composite frame, nothing else. -/
def execRefr (s : State) : Host.Outcome State Fault Refusal :=
  .next (emit (.frame s.axis s.feed s.pos.x s.pos.y s.pos.z s.dispDir s.emsState) s)

end Sys2Proof.Machine
end

