-- ==== Sys2Proof/Machine/Environment.lean ====
section
/-!
DEFINITION. The environment's operations: the meanings of `RST` (R300) and `TADV` (R269).
-/

namespace Sys2Proof.Machine

/-- `RST` (R300): always enabled; it emits nothing. -/
def execRst (s : State) : Host.Outcome State Fault Refusal := .next (resetAll s)

/-- `TADV d` (R269): always enabled. -/
def execTadv (d : BitVec 28) (s : State) : Host.Outcome State Fault Refusal := .next (advanceTime d s)

end Sys2Proof.Machine
end

