-- ==== Sys2Proof/Machine/Interlock.lean ====
section
/-!
DEFINITION. Unit E: the meanings of `EMSEDGE` and `EMSCHK` (42_safety_interlock.md), the debounced variant only (R209).
-/

namespace Sys2Proof.Machine

/-- `EMSEDGE lvl` (R200, R201): always enabled. -/
def execEmsedge (lvl : Bool) (s : State) : Host.Outcome State Fault Refusal :=
  .next (if lvl ≠ s.emsLast ∧ guardPassed s.now s.emsLastTs = true then wakeInterlock s else s)

/-- `EMSCHK lvl` (R202 to R206): enabled when `EMS_PEND` = 1, which it clears first. -/
def execEmschk (lvl : Bool) (s : State) : Host.Outcome State Fault Refusal :=
  if pending .ems s then
    let t := clearPend .ems s
    .next (if lvl ≠ t.emsLast then acceptTransition lvl t else t)
  else .refused .emschkNotEnabled

end Sys2Proof.Machine
end

