-- ==== Sys2Proof/Machine/Quadrature.lean ====
section
/-!
DEFINITION. Unit Q: the meaning of `QEDGE` and of each entry of the step table (40_quadrature_decoder.md).
-/

namespace Sys2Proof.Machine

/-- `QEDGE a b` (R130): always enabled. -/
def execQedge (a b : Bool) (s : State) : Host.Outcome State Fault Refusal :=
  .next (takeSample (sample s.params a b) s)

/-- `LUT[0]` (R131): unchanged. -/
def execLut0 (s : State) : Host.Outcome State Fault Refusal := decodeEntry 0b00 0b00 0 s

/-- `LUT[1]` (R132): valid, negative. -/
def execLut1 (s : State) : Host.Outcome State Fault Refusal := decodeEntry 0b00 0b01 (-1) s

/-- `LUT[2]` (R133): valid, positive. -/
def execLut2 (s : State) : Host.Outcome State Fault Refusal := decodeEntry 0b00 0b10 1 s

/-- `LUT[3]` (R134): invalid. -/
def execLut3 (s : State) : Host.Outcome State Fault Refusal := decodeEntry 0b00 0b11 0 s

/-- `LUT[4]` (R135): valid, positive. -/
def execLut4 (s : State) : Host.Outcome State Fault Refusal := decodeEntry 0b01 0b00 1 s

/-- `LUT[5]` (R136): unchanged. -/
def execLut5 (s : State) : Host.Outcome State Fault Refusal := decodeEntry 0b01 0b01 0 s

/-- `LUT[6]` (R137): invalid. -/
def execLut6 (s : State) : Host.Outcome State Fault Refusal := decodeEntry 0b01 0b10 0 s

/-- `LUT[7]` (R138): valid, negative. -/
def execLut7 (s : State) : Host.Outcome State Fault Refusal := decodeEntry 0b01 0b11 (-1) s

/-- `LUT[8]` (R139): valid, negative. -/
def execLut8 (s : State) : Host.Outcome State Fault Refusal := decodeEntry 0b10 0b00 (-1) s

/-- `LUT[9]` (R140): invalid. -/
def execLut9 (s : State) : Host.Outcome State Fault Refusal := decodeEntry 0b10 0b01 0 s

/-- `LUT[10]` (R141): unchanged. -/
def execLut10 (s : State) : Host.Outcome State Fault Refusal := decodeEntry 0b10 0b10 0 s

/-- `LUT[11]` (R142): valid, positive. -/
def execLut11 (s : State) : Host.Outcome State Fault Refusal := decodeEntry 0b10 0b11 1 s

/-- `LUT[12]` (R143): invalid. -/
def execLut12 (s : State) : Host.Outcome State Fault Refusal := decodeEntry 0b11 0b00 0 s

/-- `LUT[13]` (R144): valid, positive. -/
def execLut13 (s : State) : Host.Outcome State Fault Refusal := decodeEntry 0b11 0b01 1 s

/-- `LUT[14]` (R145): valid, negative. -/
def execLut14 (s : State) : Host.Outcome State Fault Refusal := decodeEntry 0b11 0b10 (-1) s

/-- `LUT[15]` (R146): unchanged. -/
def execLut15 (s : State) : Host.Outcome State Fault Refusal := decodeEntry 0b11 0b11 0 s

end Sys2Proof.Machine
end

