-- ==== Sys2Proof/Machine/Scanner.lean ====
section
/-!
DEFINITION. Unit S: the meanings of `XCHG` and `SCAN` (41_button_scanner.md).
-/

namespace Sys2Proof.Machine

/-- `XCHG` (R170): always enabled. -/
def execXchg (s : State) : Host.Outcome State Fault Refusal := .next (wake .scan s)

/-- `SCAN r` (R171, R172): enabled when `SCAN_PEND` = 1, which it clears first. -/
def execScan (r : BitVec 16) (s : State) : Host.Outcome State Fault Refusal :=
  if pending .scan s then .next (scanBody r (clearPend .scan s)) else .refused .scanNotEnabled

end Sys2Proof.Machine
end

