-- ==== Sys2Proof/Machine/Dispatch.lean ====
section
/-! DEFINITION. One arm for each constructor of `Instr`, each a direct call of its meaning. -/

namespace Sys2Proof.Machine

def exec (i : Instr) (s : State) : Host.Outcome State Fault Refusal :=
  match i with
  | .rst => Sys2Proof.Machine.execRst s
  | .qedge a b => Sys2Proof.Machine.execQedge a b s
  | .xchg => Sys2Proof.Machine.execXchg s
  | .scan r => Sys2Proof.Machine.execScan r s
  | .emsedge lvl => Sys2Proof.Machine.execEmsedge lvl s
  | .emschk lvl => Sys2Proof.Machine.execEmschk lvl s
  | .axedge xn yn zn => Sys2Proof.Machine.execAxedge xn yn zn s
  | .disp => Sys2Proof.Machine.execDisp s
  | .refr => Sys2Proof.Machine.execRefr s
  | .tadv d => Sys2Proof.Machine.execTadv d s
  | .lut0 => Sys2Proof.Machine.execLut0 s
  | .lut1 => Sys2Proof.Machine.execLut1 s
  | .lut2 => Sys2Proof.Machine.execLut2 s
  | .lut3 => Sys2Proof.Machine.execLut3 s
  | .lut4 => Sys2Proof.Machine.execLut4 s
  | .lut5 => Sys2Proof.Machine.execLut5 s
  | .lut6 => Sys2Proof.Machine.execLut6 s
  | .lut7 => Sys2Proof.Machine.execLut7 s
  | .lut8 => Sys2Proof.Machine.execLut8 s
  | .lut9 => Sys2Proof.Machine.execLut9 s
  | .lut10 => Sys2Proof.Machine.execLut10 s
  | .lut11 => Sys2Proof.Machine.execLut11 s
  | .lut12 => Sys2Proof.Machine.execLut12 s
  | .lut13 => Sys2Proof.Machine.execLut13 s
  | .lut14 => Sys2Proof.Machine.execLut14 s
  | .lut15 => Sys2Proof.Machine.execLut15 s

end Sys2Proof.Machine
end

