-- ==== Sys2Proof/Machine/Step.lean ====
section
/-!
DEFINITION. One step: take the next stimulus, decode it, run it (R9, R101, R103).
-/

namespace Sys2Proof.Machine

/-- The environment's next operation is performed on the state without it. A run that is over has no next step (R78),
and a word that spells no operation is refused (R103). -/
def step (s : State) : Host.Outcome State Fault Refusal :=
  match fetch s with
  | none => .refused .noStimulus
  | some (x, t) =>
    match decode x with
    | .error e => .refused (.badWord e)
    | .ok i => exec i t

/-- The table row whose bits are `w`, placed as the block's next operation. Log entry 9. -/
def State.withFetchWord (s : State) (nbits w : Nat) : State := placeTableWord nbits w s

end Sys2Proof.Machine
end

