-- ==== Sys2Proof/Safety.lean ====
section
/-!
DEFINITION. What a good state and a good schedule are, in the terms statements use: the invariants of R42, the tick
accounting of R243 (c), the re-check delay of R205, runs of several operations, and the encoder's sample cycles (R93).
-/

namespace Sys2Proof.Machine

/-- The invariants of R42 that the types leave open: (a) `ACC` between -3 and +3, (b) a pending tick has a direction,
(c) `BTN_MASK[15:12]` = 0, (d) `EMS_LAST` = 1 exactly when `EMS_STATE` = IDLE. The rest of (b), (e) and (f) hold by
the types of `dir`, `axis` and `pos`. -/
abbrev StateInv (s : State) : Prop :=
  (-3 ≤ s.acc.toInt ∧ s.acc.toInt ≤ 3) ∧
  (s.tickPend = true → s.dir ≠ .neutral) ∧
  s.btnMask.extractLsb' 12 4 = 0#4 ∧
  (s.emsLast = true ↔ s.emsState = .idle)

/-- Every processed tick was committed, and a pending one too (R243 c): `N_DISP`, plus one for a pending tick, is at
most `N_COMMIT`. -/
abbrev TicksAccounted (s : State) : Prop :=
  s.ghost.nDisp + s.tickPend.toNat ≤ s.ghost.nCommit

/-- At least `EMS_RECHECK_MS` has passed since the `EMSEDGE` that set `EMS_PEND` (R205). DESIGN CHOICE, log entry 24: the
time passed is taken modulo 2^32, as R201 takes the guard's, for R205 and D17 do not say how this delay wraps. So an
`EMSCHK` pending for 2^32 ms or more is called too early again for the first 100 ms after each wrap. -/
def recheckDue (s : State) : Bool :=
  decide (Config.emsRecheckMs.toNat ≤ (elapsedMs s.now s.ghost.emsWakeTs).toNat)

/-- The environment's schedule respects R205 at this operation: an `EMSCHK` comes no earlier than the re-check delay.
The machine does not enforce it (R205: a constraint on scheduling, not on state). Log entry 7; the delay's wrap is the
choice of log entry 24. -/
def scheduleAllows (i : Instr) (s : State) : Bool :=
  match i with
  | .emschk _ => recheckDue s
  | .rst | .qedge _ _ | .xchg | .scan _ | .emsedge _ | .axedge _ _ _ | .disp | .refr | .tadv _ => true
  | .lut0 | .lut1 | .lut2 | .lut3 | .lut4 | .lut5 | .lut6 | .lut7 => true
  | .lut8 | .lut9 | .lut10 | .lut11 | .lut12 | .lut13 | .lut14 | .lut15 => true

/-- The operations of `l` one after the other (R9), stopping at the first that has no next state. -/
def execList : List Instr → State → Host.Outcome State Fault Refusal
  | [], s => .next s
  | i :: rest, s =>
    match exec i s with
    | .next t => execList rest t
    | .fault f => .fault f
    | .refused r => .refused r

/-- The milliseconds an operation lets pass: only `TADV` moves time (R36, R269). -/
def duration (i : Instr) : Nat :=
  match i with
  | .tadv d => d.toNat
  | .rst | .qedge _ _ | .xchg | .scan _ | .emsedge _ | .emschk _ | .axedge _ _ _ | .disp | .refr => 0
  | .lut0 | .lut1 | .lut2 | .lut3 | .lut4 | .lut5 | .lut6 | .lut7 => 0
  | .lut8 | .lut9 | .lut10 | .lut11 | .lut12 | .lut13 | .lut14 | .lut15 => 0

/-- The milliseconds the operations of `l` let pass in all, without wrap. -/
def runTime (l : List Instr) : Nat := (l.map duration).sum

/-- The `QEDGE` whose sample is `smp` (R90), for either order of the two lines. -/
def qedgeOf (p : Params) (smp : BitVec 2) : Instr :=
  if p.qAIsMsb then .qedge (smp.getLsbD 1) (smp.getLsbD 0) else .qedge (smp.getLsbD 0) (smp.getLsbD 1)

/-- The successor in the positive cycle 00, 10, 11, 01, 00 (R93). -/
def positiveNext (smp : BitVec 2) : BitVec 2 :=
  match smp.toNat with
  | 0 => 0b10
  | 1 => 0b00
  | 2 => 0b11
  | _ => 0b01

/-- The successor in the negative cycle 00, 01, 11, 10, 00 (R93). -/
def negativeNext (smp : BitVec 2) : BitVec 2 :=
  match smp.toNat with
  | 0 => 0b01
  | 1 => 0b11
  | 2 => 0b00
  | _ => 0b10

/-- The four samples of one full positive cycle that starts and ends at `smp` (R152 c). -/
def positiveCycle (smp : BitVec 2) : List (BitVec 2) :=
  [positiveNext smp, positiveNext (positiveNext smp), positiveNext (positiveNext (positiveNext smp)), smp]

/-- The four samples of one full negative cycle that starts and ends at `smp` (R152 c). -/
def negativeCycle (smp : BitVec 2) : List (BitVec 2) :=
  [negativeNext smp, negativeNext (negativeNext smp), negativeNext (negativeNext (negativeNext smp)), smp]

/-- The sum of the step contributions of the samples of `l`, read after the sample `prev` (R152 b). -/
def contributions (prev : BitVec 2) : List (BitVec 2) → Int
  | [] => 0
  | smp :: rest => lut (lutIndex prev smp) + contributions smp rest

/-- `POS[a]`. -/
def posOf (p : Position) : Axis → Int
  | .x => p.x
  | .y => p.y
  | .z => p.z

/-- The line of axis `a` among the three of an `AXEDGE` (R230). -/
def axisLine (xn yn zn : Bool) : Axis → Bool
  | .x => xn
  | .y => yn
  | .z => zn

end Sys2Proof.Machine
end

