-- ==== Sys2Proof/Certificates/Slice0/Obligations.lean ====
section
/-!
DEFINITION. The statements for the provers, each from a numbered rule of the spec. A statement about every state holds
for every parameter record too, since the parameters stand in the state.
-/

open Sys2Proof Sys2Proof.Machine

/-! ## Stimulus words (R101 to R103) and the step -/

/-- Decoding what the encoder wrote gives the instruction back, for every instruction and every operand value. -/
def Obligations.DecodeReturnsWhatEncodeWrote : Prop :=
  ∀ i : Instr, decode (encode i) = .ok i

/-- A stimulus has one meaning: encoding what the decoder read gives the stimulus back. -/
def Obligations.EncodeReturnsWhatDecodeRead : Prop :=
  ∀ (x : Stimulus) (i : Instr), decode x = .ok i → encode i = x

/-- R102: the operation codes and payloads, as the operation rules' "Encoding" lines compute the words. -/
def Obligations.EncodingsAreTheRulesWords : Prop :=
  encode .rst = .word 0x00000000 ∧
  (∀ a b, encode (.qedge a b) =
    .word (0x10000000 ||| ((BitVec.ofBool a).setWidth 32 <<< 1) ||| (BitVec.ofBool b).setWidth 32)) ∧
  encode .xchg = .word 0x20000000 ∧
  (∀ r : BitVec 16, encode (.scan r) = .word (0x30000000 ||| r.setWidth 32)) ∧
  (∀ lvl, encode (.emsedge lvl) = .word (0x40000000 ||| (BitVec.ofBool lvl).setWidth 32)) ∧
  (∀ lvl, encode (.emschk lvl) = .word (0x50000000 ||| (BitVec.ofBool lvl).setWidth 32)) ∧
  (∀ xn yn zn, encode (.axedge xn yn zn) =
    .word (0x60000000 ||| ((BitVec.ofBool zn).setWidth 32 <<< 2) ||| ((BitVec.ofBool yn).setWidth 32 <<< 1) |||
      (BitVec.ofBool xn).setWidth 32)) ∧
  encode .disp = .word 0x70000000 ∧
  encode .refr = .word 0x80000000 ∧
  (∀ d : BitVec 28, encode (.tadv d) = .word (0x90000000 ||| d.setWidth 32))

/-- R103: exactly the words of the table's rows spell an operation; a reserved `OP` is reported as such; a step refuses
the others, and refuses a well-formed word whose operation is not enabled. -/
def Obligations.ReservedWordsAreRefused : Prop :=
  (∀ w, (∃ i, decodeWord w = .ok i) ↔ (Stimulus.word w).wellFormed = true) ∧
  (∀ w, decodeWord w = .error .reservedOp ↔ 0xA ≤ (w.extractLsb' 28 4).toNat) ∧
  (∀ (s : State) (w : BitVec 32) (rest : List Stimulus), s.stim = .word w :: rest →
    (Stimulus.word w).wellFormed = false → ∃ e, step s = .refused (.badWord e)) ∧
  (∀ (s : State) (w : BitVec 32) (rest : List Stimulus) (i : Instr), s.stim = .word w :: rest →
    decodeWord w = .ok i → enabled i { s with stim := rest } = false → ∃ r, step s = .refused r)

/-- The words of 95_test_vectors.md section 2.8 and four LUT indices decode as that section and R92 list them. -/
def Obligations.ListedWordsDecode : Prop :=
  decodeWord 0x00000000 = .ok .rst ∧ decodeWord 0x10000002 = .ok (.qedge true false) ∧
  decodeWord 0x10000004 = .error .nonzeroPayload ∧ decodeWord 0x20000000 = .ok .xchg ∧
  decodeWord 0x20000001 = .error .nonzeroPayload ∧ decodeWord 0x3000DFFF = .ok (.scan 0xDFFF) ∧
  decodeWord 0x3001FFFF = .error .nonzeroPayload ∧ decodeWord 0x40000001 = .ok (.emsedge true) ∧
  decodeWord 0x50000000 = .ok (.emschk false) ∧ decodeWord 0x60000005 = .ok (.axedge true false true) ∧
  decodeWord 0x60000008 = .error .nonzeroPayload ∧ decodeWord 0x70000000 = .ok .disp ∧
  decodeWord 0x80000000 = .ok .refr ∧ decodeWord 0x9FFFFFFF = .ok (.tadv 268435455) ∧
  decodeWord 0xA0000000 = .error .reservedOp ∧ decodeWord 0xFFFFFFFF = .error .reservedOp ∧
  decode (.index 0b0000) = .ok .lut0 ∧ decode (.index 0b0111) = .ok .lut7 ∧
  decode (.index 0b1000) = .ok .lut8 ∧ decode (.index 0b1111) = .ok .lut15

/-- A step takes the next item of the run and is `exec` of the instruction it decodes to, on the state without that
item; with no item left it is refused. The list of items and the name of that refusal are the model's (log entry 6). -/
def Obligations.StepRunsTheDecodedInstruction : Prop :=
  (∀ (s : State) (x : Stimulus) (rest : List Stimulus) (i : Instr),
    s.stim = x :: rest → decode x = .ok i → step s = exec i { s with stim := rest }) ∧
  (∀ s : State, s.stim = [] → step s = .refused .noStimulus)

/-! ## Unit Q -/

/-- R130: `QEDGE`, its pseudocode and its encoding, with the table written out (R91, R92). -/
def Obligations.QedgeFollowsTheStepTable : Prop :=
  ∀ (s : State) (a b : Bool),
    let smp : BitVec 2 :=
      if s.params.qAIsMsb then BitVec.ofBool a ++ BitVec.ofBool b else BitVec.ofBool b ++ BitVec.ofBool a
    let table : List Int := [0, -1, 1, 0, 1, 0, 0, -1, -1, 0, 0, 1, 0, 1, -1, 0]
    let acc1 := s.acc.toInt + table.getD (4 * s.prev.toNat + smp.toNat) 0
    let commit (d : Sense) : State :=
      { s with prev := smp, acc := 0, dir := d, tickPend := true,
               ghost := { s.ghost with nCommit := s.ghost.nCommit + 1 } }
    exec (.qedge a b) s = .next
      (if smp = s.prev then s
       else if acc1 = 4 then commit .plus
       else if acc1 = -4 then commit .minus
       else { s with prev := smp, acc := BitVec.ofInt 4 acc1 }) ∧
    encode (.qedge a b) =
      .word (0x10000000 ||| ((BitVec.ofBool a).setWidth 32 <<< 1) ||| (BitVec.ofBool b).setWidth 32)

/-- R147, which the spec derives from R21 and R42: from an accumulator in -3..+3 the sum is in -4..+4, is stored exactly when it does not commit, and at a commit
its sign is the direction. -/
def Obligations.AccumulationNeverOverflows : Prop :=
  ∀ (s : State) (a b : Bool), -3 ≤ s.acc.toInt → s.acc.toInt ≤ 3 →
    let acc1 := s.acc.toInt + lut (lutIndex s.prev (sample s.params a b))
    (-4 ≤ acc1 ∧ acc1 ≤ 4) ∧
    ∀ t, exec (.qedge a b) s = .next t →
      (acc1 ≠ 4 → acc1 ≠ -4 → t.acc.toInt = acc1 ∧ t.dir = s.dir ∧ t.tickPend = s.tickPend) ∧
      (acc1 = 4 → t.acc = 0 ∧ t.dir = .plus ∧ t.tickPend = true) ∧
      (acc1 = -4 → t.acc = 0 ∧ t.dir = .minus ∧ t.tickPend = true)

/-- R131, R136, R141, R146, R149: the four unchanged entries are 0 and write nothing, and a `QEDGE` with an unchanged
sample writes nothing. -/
def Obligations.UnchangedEntriesWriteNothing : Prop :=
  (lut 0 = 0 ∧ lut 5 = 0 ∧ lut 10 = 0 ∧ lut 15 = 0) ∧
  (∀ p : BitVec 2, indexClass p p = .unchanged) ∧
  (∀ s : State,
    (s.prev = 0b00 → exec .lut0 s = .next s) ∧ (s.prev = 0b01 → exec .lut5 s = .next s) ∧
    (s.prev = 0b10 → exec .lut10 s = .next s) ∧ (s.prev = 0b11 → exec .lut15 s = .next s)) ∧
  (∀ (s : State) (a b : Bool), sample s.params a b = s.prev → exec (.qedge a b) s = .next s)

/-- R134, R137, R140, R143: the four invalid entries are 0, leave `ACC` as it is and advance `PREV`. -/
def Obligations.InvalidEntriesKeepTheAccumulator : Prop :=
  (lut 3 = 0 ∧ lut 6 = 0 ∧ lut 9 = 0 ∧ lut 12 = 0) ∧
  (indexClass 0b00 0b11 = .invalid ∧ indexClass 0b01 0b10 = .invalid ∧
    indexClass 0b10 0b01 = .invalid ∧ indexClass 0b11 0b00 = .invalid) ∧
  ∀ s : State, -3 ≤ s.acc.toInt → s.acc.toInt ≤ 3 →
    (s.prev = 0b00 → exec .lut3 s = .next { s with prev := 0b11 }) ∧
    (s.prev = 0b01 → exec .lut6 s = .next { s with prev := 0b10 }) ∧
    (s.prev = 0b10 → exec .lut9 s = .next { s with prev := 0b01 }) ∧
    (s.prev = 0b11 → exec .lut12 s = .next { s with prev := 0b00 })

/-- R133, R135, R142, R144: the four positive entries are +1, advance `PREV` along the positive cycle and raise `ACC` by
1, or commit a positive tick when that makes it +4 (R148). -/
def Obligations.PositiveEntriesStepUp : Prop :=
  (lut 2 = 1 ∧ lut 4 = 1 ∧ lut 11 = 1 ∧ lut 13 = 1) ∧
  (indexClass 0b00 0b10 = .positive ∧ indexClass 0b01 0b00 = .positive ∧
    indexClass 0b10 0b11 = .positive ∧ indexClass 0b11 0b01 = .positive) ∧
  positiveCycle 0b00 = [0b10, 0b11, 0b01, 0b00] ∧
  ∀ s : State, -3 ≤ s.acc.toInt → s.acc.toInt ≤ 3 →
    let up (smp : BitVec 2) : State :=
      if s.acc.toInt = 3 then
        { s with prev := smp, acc := 0, dir := .plus, tickPend := true,
                 ghost := { s.ghost with nCommit := s.ghost.nCommit + 1 } }
      else { s with prev := smp, acc := s.acc + 1 }
    (s.prev = 0b00 → exec .lut2 s = .next (up 0b10)) ∧
    (s.prev = 0b01 → exec .lut4 s = .next (up 0b00)) ∧
    (s.prev = 0b10 → exec .lut11 s = .next (up 0b11)) ∧
    (s.prev = 0b11 → exec .lut13 s = .next (up 0b01))

/-- R132, R138, R139, R145: the four negative entries are -1, advance `PREV` along the negative cycle and lower `ACC` by
1, or commit a negative tick when that makes it -4 (R148). -/
def Obligations.NegativeEntriesStepDown : Prop :=
  (lut 1 = -1 ∧ lut 7 = -1 ∧ lut 8 = -1 ∧ lut 14 = -1) ∧
  (indexClass 0b00 0b01 = .negative ∧ indexClass 0b01 0b11 = .negative ∧
    indexClass 0b10 0b00 = .negative ∧ indexClass 0b11 0b10 = .negative) ∧
  negativeCycle 0b00 = [0b01, 0b11, 0b10, 0b00] ∧
  ∀ s : State, -3 ≤ s.acc.toInt → s.acc.toInt ≤ 3 →
    let down (smp : BitVec 2) : State :=
      if s.acc.toInt = -3 then
        { s with prev := smp, acc := 0, dir := .minus, tickPend := true,
                 ghost := { s.ghost with nCommit := s.ghost.nCommit + 1 } }
      else { s with prev := smp, acc := s.acc - 1 }
    (s.prev = 0b00 → exec .lut1 s = .next (down 0b01)) ∧
    (s.prev = 0b01 → exec .lut7 s = .next (down 0b11)) ∧
    (s.prev = 0b10 → exec .lut8 s = .next (down 0b00)) ∧
    (s.prev = 0b11 → exec .lut14 s = .next (down 0b10))

/-- R91 and the sixteen entry rules against R130: a `QEDGE` does exactly what the entry of its index does. -/
def Obligations.QedgeIsTheEntryOfItsIndex : Prop :=
  ∀ (s : State) (a b : Bool),
    exec (.qedge a b) s = exec (decodeIndex (lutIndex s.prev (sample s.params a b))) s

/-- R92 and R93: the entries are -1, 0 or +1; the classes are those of the two samples' bits; the table is
antisymmetric in both ways; the positive and the negative cycle are R93's. -/
def Obligations.StepTableIsAntisymmetric : Prop :=
  ∀ p q : BitVec 2,
    let swapped (smp : BitVec 2) : BitVec 2 := BitVec.ofBool (smp.getLsbD 0) ++ BitVec.ofBool (smp.getLsbD 1)
    (lut (lutIndex p q) = -1 ∨ lut (lutIndex p q) = 0 ∨ lut (lutIndex p q) = 1) ∧
    lut (lutIndex q p) = -lut (lutIndex p q) ∧
    lut (lutIndex (swapped p) (swapped q)) = -lut (lutIndex p q) ∧
    (lut (lutIndex p q) = 0 ↔ p = q ∨ p = ~~~q) ∧
    (lut (lutIndex p q) = 1 ↔ q = positiveNext p) ∧ (lut (lutIndex p q) = -1 ↔ q = negativeNext p) ∧
    (indexClass p q = .unchanged ↔ p = q) ∧ (indexClass p q = .invalid ↔ p = ~~~q) ∧
    (indexClass p q = .positive ↔ lut (lutIndex p q) = 1) ∧ (indexClass p q = .negative ↔ lut (lutIndex p q) = -1)

/-- R152 (c): from `ACC` = 0 one full cycle of samples, from whatever sample it starts, commits exactly one tick, at its
last step, and leaves everything else as it was: the first three samples commit nothing and leave `ACC` at +3 or -3. -/
def Obligations.FullCycleCommitsOneTick : Prop :=
  ∀ s : State, s.acc = 0 →
    execList (((positiveCycle s.prev).take 3).map (qedgeOf s.params)) s =
      .next { s with prev := positiveNext (positiveNext (positiveNext s.prev)), acc := 3 } ∧
    execList (((negativeCycle s.prev).take 3).map (qedgeOf s.params)) s =
      .next { s with prev := negativeNext (negativeNext (negativeNext s.prev)), acc := -3 } ∧
    execList ((positiveCycle s.prev).map (qedgeOf s.params)) s =
      .next { s with dir := .plus, tickPend := true, ghost := { s.ghost with nCommit := s.ghost.nCommit + 1 } } ∧
    execList ((negativeCycle s.prev).map (qedgeOf s.params)) s =
      .next { s with dir := .minus, tickPend := true, ghost := { s.ghost with nCommit := s.ghost.nCommit + 1 } }

/-- R152 (b): while every prefix of the contributions keeps the sum in -3..+3, no commit occurs and `ACC` is the sum. -/
def Obligations.NoCommitWhileSumsStayInside : Prop :=
  ∀ (l : List (BitVec 2)) (s : State),
    (∀ n, n ≤ l.length → -3 ≤ s.acc.toInt + contributions s.prev (l.take n) ∧
      s.acc.toInt + contributions s.prev (l.take n) ≤ 3) →
    execList (l.map (qedgeOf s.params)) s =
      .next { s with
        prev := l.getLastD s.prev, acc := BitVec.ofInt 4 (s.acc.toInt + contributions s.prev l) }

/-- R152 (e): what `QEDGE` does to unit Q depends on `PREV`, `ACC` and the sample alone. -/
def Obligations.QedgeReadsOnlyUnitQ : Prop :=
  ∀ (s t s' t' : State) (a b : Bool), s.prev = t.prev → s.acc = t.acc → s.params.qAIsMsb = t.params.qAIsMsb →
    exec (.qedge a b) s = .next s' → exec (.qedge a b) t = .next t' →
    s'.prev = t'.prev ∧ s'.acc = t'.acc ∧
    (s'.ghost.nCommit - s.ghost.nCommit = t'.ghost.nCommit - t.ghost.nCommit) ∧
    (s'.ghost.nCommit ≠ s.ghost.nCommit → s'.dir = t'.dir ∧ s'.tickPend = true ∧ t'.tickPend = true)

/-- R151: a commit while a tick is pending overwrites `DIR` and the earlier tick is never dispatched: two detents before
one `DISP` give one move, in the direction of the later one. -/
def Obligations.TwoDetentsBeforeDispGiveOneMove : Prop :=
  ∀ s : State, s.acc = 0 → s.tickPend = false → s.emsState = .idle →
    let up := (positiveCycle s.prev).map (qedgeOf s.params)
    let down := (negativeCycle s.prev).map (qedgeOf s.params)
    let moved (t : State) (d : Sense) (sign : Byte) : Prop :=
      t.pos = movePosition s.axis (senseInt d * feedMilli s.feed) s.pos ∧ t.dir = d ∧ t.tickPend = false ∧
      t.out = s.out ++ [.ser (moveLine s.params s.axis sign s.feed)] ∧
      t.ghost.nCommit = s.ghost.nCommit + 2 ∧ t.ghost.nDisp = s.ghost.nDisp + 1
    (∃ t, execList (up ++ up ++ [.disp]) s = .next t ∧ moved t .plus 0x2B) ∧
    (∃ t, execList (down ++ down ++ [.disp]) s = .next t ∧ moved t .minus 0x2D) ∧
    (∃ t, execList (up ++ down ++ [.disp]) s = .next t ∧ moved t .minus 0x2D) ∧
    (∃ t, execList (down ++ up ++ [.disp]) s = .next t ∧ moved t .plus 0x2B)

/-! ## Unit S -/

/-- R170: `XCHG` sets `SCAN_PEND` and writes nothing else; a second one changes nothing, and one `SCAN` follows, not two. -/
def Obligations.XchgOnlySetsScanPend : Prop :=
  (∀ s : State, exec .xchg s = .next { s with scanPend := true }) ∧
  (∀ s : State, s.scanPend = true → exec .xchg s = .next s) ∧
  (∀ (s : State) (r : BitVec 16), ∃ t, execList [.xchg, .xchg, .scan r] s = .next t ∧ t.scanPend = false) ∧
  encode .xchg = .word 0x20000000

/-- R172 with R171, R173 to R180: the whole of `SCAN r`. With `SCAN_PEND` = 0 it is not enabled; with 1 it clears it,
writes `FEED` from the snapshot, fires or warns for each press edge in ascending slot order, and stores the levels. -/
def Obligations.ScanHandlesEveryPressEdge : Prop :=
  ∀ (s : State) (r : BitVec 16),
    (s.scanPend = false → exec (.scan r) s = .refused .scanNotEnabled) ∧
    (s.scanPend = true →
      let active (k : Fin 16) : Bool := r.getLsbD k.val == s.params.feedActiveLevel
      let newly : BitVec 16 := s.btnMask &&& ~~~r &&& 0x0FFF
      let edges : List (Fin 12) := [0, 1, 2, 3, 4, 5, 6, 7, 8, 9, 10, 11].filter fun i : Fin 12 => newly.getLsbD i.val
      let base : State :=
        { s with
          scanPend := false
          feed := if active s.params.feedBitFull then .full else if active s.params.feedBitMilli then .milli
            else if active s.params.feedBitMicro then .micro else .nano
          btnMask := r &&& 0x0FFF }
      exec (.scan r) s = .next
        (if s.emsState = .engaged then { base with out := s.out ++ edges.map fun _ => Event.warn }
         else
          { base with
            toggle := s.toggle ^^^ newly.setWidth 12
            out := s.out ++ edges.flatMap fun i =>
              if s.toggle[i.val] then [.ser ((s.params.slots[i]).commandOff ++ s.params.newline), .fired i .off]
              else [.ser ((s.params.slots[i]).commandOn ++ s.params.newline), .fired i .on]
            ghost := { s.ghost with
              fires := Vector.ofFn fun i : Fin 12 => s.ghost.fires[i] + (newly.getLsbD i.val).toNat } })) ∧
    encode (.scan r) = .word (0x30000000 ||| r.setWidth 32)

/-- R186 (b) and (c): in IDLE one serial line for each press edge; in ENGAGED no line, no toggle change, one warning for
each press edge. -/
def Obligations.ScanCountsItsEvents : Prop :=
  ∀ (s t : State) (r : BitVec 16), exec (.scan r) s = .next t →
    let edges : List (Fin 12) := Config.slotNumbers.filter fun i => (pressEdges s.btnMask r).getLsbD i.val
    (s.emsState = .idle → (serialLines t.out).length = (serialLines s.out).length + edges.length ∧
      t.out.count .warn = s.out.count .warn ∧ t.toggle = s.toggle ^^^ (pressEdges s.btnMask r).setWidth 12) ∧
    (s.emsState = .engaged → serialLines t.out = serialLines s.out ∧
      t.out.count .warn = s.out.count .warn + edges.length ∧ t.toggle = s.toggle)

/-- R181: a held button does nothing, and a second `SCAN` with the same snapshot emits nothing and changes nothing. The
second part is the spec's own inference, from R174 and R178. -/
def Obligations.HeldButtonDoesNothing : Prop :=
  (∀ (s t : State) (r : BitVec 16) (i : Fin 12), exec (.scan r) s = .next t →
    r.getLsbD i.val = false → s.btnMask.getLsbD i.val = false →
    t.toggle[i.val] = s.toggle[i.val] ∧ t.ghost.fires[i] = s.ghost.fires[i] ∧
      t.btnMask.getLsbD i.val = false ∧ ∀ v, t.out.count (.fired i v) = s.out.count (.fired i v)) ∧
  (∀ (s t : State) (r : BitVec 16), exec (.scan r) s = .next t → execList (Instr.press r) t = .next t)

/-- R180: the slots are independent lanes: slot `i`'s outcome depends only on its own mask bit, its own level, its own
toggle bit, and the interlock. -/
def Obligations.SlotsAreIndependentLanes : Prop :=
  ∀ (s t s' t' : State) (r q : BitVec 16) (i : Fin 12),
    s.btnMask.getLsbD i.val = t.btnMask.getLsbD i.val → r.getLsbD i.val = q.getLsbD i.val →
    s.toggle[i.val] = t.toggle[i.val] → s.emsState = t.emsState →
    exec (.scan r) s = .next s' → exec (.scan q) t = .next t' →
    s'.btnMask.getLsbD i.val = t'.btnMask.getLsbD i.val ∧ s'.toggle[i.val] = t'.toggle[i.val] ∧
    s'.ghost.fires[i] - s.ghost.fires[i] = t'.ghost.fires[i] - t.ghost.fires[i] ∧
    ∀ v, s'.out.count (.fired i v) - s.out.count (.fired i v) = t'.out.count (.fired i v) - t.out.count (.fired i v)

/-- R186 (d): two presses of one slot in IDLE, with a release between them, fire it twice and restore its toggle bit. -/
def Obligations.TwoPressesRestoreTheToggle : Prop :=
  ∀ (s : State) (i : Fin 12) (down up : BitVec 16), s.emsState = .idle → s.btnMask.getLsbD i.val = true →
    down.getLsbD i.val = false → up.getLsbD i.val = true →
    ∃ t, execList (Instr.press down ++ Instr.press up ++ Instr.press down) s = .next t ∧
      t.toggle[i.val] = s.toggle[i.val] ∧ t.ghost.fires[i] = s.ghost.fires[i] + 2

/-- R96: after `SCAN r` the rate is the first active one in the order FULL, MILLI, MICRO, else NANO, whatever the rate
and the interlock state were. -/
def Obligations.FeedFollowsThePriority : Prop :=
  ∀ (s t : State) (r : BitVec 16), exec (.scan r) s = .next t →
    let active (k : Fin 16) : Prop := r.getLsbD k.val = s.params.feedActiveLevel
    (t.feed = .full ↔ active s.params.feedBitFull) ∧
    (t.feed = .milli ↔ ¬active s.params.feedBitFull ∧ active s.params.feedBitMilli) ∧
    (t.feed = .micro ↔ ¬active s.params.feedBitFull ∧ ¬active s.params.feedBitMilli ∧ active s.params.feedBitMicro) ∧
    (t.feed = .nano ↔ ¬active s.params.feedBitFull ∧ ¬active s.params.feedBitMilli ∧ ¬active s.params.feedBitMicro)

/-- R312: a press while ENGAGED is consumed: with the button still down after the release, the same snapshot fires nothing
and the toggle keeps its value. -/
def Obligations.PressWhileEngagedIsConsumed : Prop :=
  ∀ (s : State) (r : BitVec 16), s.emsState = .engaged → s.emsLast = false → s.emsPend = true →
    ∃ t, execList (Instr.press r ++ [.emschk true] ++ Instr.press r) s = .next t ∧
      t.emsState = .idle ∧ t.toggle = s.toggle ∧ t.btnMask = r &&& 0x0FFF ∧
      serialLines t.out = serialLines s.out ∧ t.ghost.fires = s.ghost.fires

/-! ## Unit E -/

/-- R200 and R201: `EMSEDGE` wakes the interlock task when the level differs from the stable one and at least 100 ms
have passed modulo 2^32 since the last accepted transition; it writes nothing else of the block. -/
def Obligations.EmsedgeWakesAfterTheGuard : Prop :=
  ∀ (s : State) (lvl : Bool),
    exec (.emsedge lvl) s = .next
      (if lvl ≠ s.emsLast ∧ 100 ≤ (s.now.toNat + 4294967296 - s.emsLastTs.toNat) % 4294967296 then
        { s with emsPend := true,
                 ghost := { s.ghost with emsWakeTs := if s.emsPend = true then s.ghost.emsWakeTs else s.now } }
       else s) ∧
    encode (.emsedge lvl) = .word (0x40000000 ||| (BitVec.ofBool lvl).setWidth 32)

/-- R202 with R203, R204 and R206: `EMSCHK` is enabled by `EMS_PEND`; a confirmed change engages with the cancel
sequence and the red banner or releases with the green banner; a bounce only clears the flag. -/
def Obligations.EmschkConfirmsOrDropsTheChange : Prop :=
  ∀ (s : State) (lvl : Bool),
    (s.emsPend = false → exec (.emschk lvl) s = .refused .emschkNotEnabled) ∧
    (s.emsPend = true → lvl = s.emsLast → exec (.emschk lvl) s = .next { s with emsPend := false }) ∧
    (s.emsPend = true → s.emsLast = true → lvl = false →
      exec (.emschk lvl) s = .next
        { s with emsPend := false, emsLast := false, emsLastTs := s.now, emsState := .engaged,
                 out := s.out ++ [.ser (0x21 :: 0x18 :: s.params.newline), .ems true] }) ∧
    (s.emsPend = true → s.emsLast = false → lvl = true →
      exec (.emschk lvl) s = .next
        { s with emsPend := false, emsLast := true, emsLastTs := s.now, emsState := .idle,
                 out := s.out ++ [.ems false] }) ∧
    encode (.emschk lvl) = .word (0x50000000 ||| (BitVec.ofBool lvl).setWidth 32)

/-- R208: an operation that changes `EMS_STATE` is an `EMSCHK` and appends exactly the cancel sequence with the red
banner (on engaging) or the green banner (on releasing); one that does not change it appends no banner. -/
def Obligations.OneCancelSequencePerEngagement : Prop :=
  ∀ (i : Instr) (s t : State), StateInv s → i ≠ .rst → exec i s = .next t →
    (t.emsState = s.emsState → ∀ e, t.out.count (.ems e) = s.out.count (.ems e)) ∧
    (t.emsState = s.emsState → ∀ lvl, i = .emschk lvl → t.out = s.out) ∧
    (t.emsState ≠ s.emsState → ∃ lvl, i = .emschk lvl) ∧
    (s.emsState = .idle → t.emsState = .engaged → t.out = s.out ++ [.ser (cancelLine s.params), .ems true]) ∧
    (s.emsState = .engaged → t.emsState = .idle → t.out = s.out ++ [.ems false])

/-- R207: along any run of operations that starts ENGAGED and holds neither a reset nor a released `EMSCHK`, the
interlock stays engaged, no serial line is emitted and the positions do not change. -/
def Obligations.NothingIsSentWhileEngaged : Prop :=
  ∀ (l : List Instr) (s t : State), StateInv s → s.emsState = .engaged →
    (∀ i ∈ l, i ≠ .rst ∧ i ≠ .emschk true) → execList l s = .next t →
    t.emsState = .engaged ∧ serialLines t.out = serialLines s.out ∧ t.pos = s.pos

/-- R311: in every run that lets less than 100 ms pass after an accepted transition, after a reset, or from the reset state,
whatever its operations, no `EMSEDGE` wakes the interlock task: `EMS_PEND` is 0 throughout and an `EMSEDGE` writes nothing.
The last part names such a run that completes: one `TADV`, then one `EMSEDGE`. -/
def Obligations.GuardIntervalIsABlindWindow : Prop :=
  let blind (t : State) : Prop :=
    (∀ (l : List Instr) (u : State), runTime l < 100 → execList l t = .next u →
      u.emsPend = false ∧ ∀ lvl, exec (.emsedge lvl) u = .next u) ∧
    (∀ (d : BitVec 28) (lvl : Bool), d.toNat < 100 →
      ∃ u, execList [.tadv d, .emsedge lvl] t = .next u ∧ u.emsPend = false)
  (∀ (s t : State) (lvl : Bool), exec (.emschk lvl) s = .next t → t.emsLast ≠ s.emsLast → blind t) ∧
  (∀ s t : State, exec .rst s = .next t → blind t) ∧
  (∀ p : Params, blind (State.resetWith p))

/-! ## Units A and D, the refresh -/

/-- R230 and R232: `AXEDGE` accepts an axis whose line is low and returns the direction indicator to neutral; with no
line low it writes nothing. The choice among several low lines is the next statement's. -/
def Obligations.AxedgeAcceptsALowLine : Prop :=
  (∀ (s : State) (xn yn zn : Bool), xn = false ∨ yn = false ∨ zn = false →
    ∃ a, axisLine xn yn zn a = false ∧ exec (.axedge xn yn zn) s = .next { s with axis := a, dispDir := .neutral }) ∧
  (∀ s : State, exec (.axedge true true true) s = .next s) ∧
  (∀ xn yn zn, encode (.axedge xn yn zn) =
    .word (0x60000000 ||| ((BitVec.ofBool zn).setWidth 32 <<< 2) ||| ((BitVec.ofBool yn).setWidth 32 <<< 1) |||
      (BitVec.ofBool xn).setWidth 32))

/-- R230 and R231: the first low line in the order X, Y, Z wins, and with none low nothing is written. R231 calls the
choice among several low lines an accepted quirk, not a guaranteed semantic (log entry 10). -/
def Obligations.AxedgePriorityIsXThenYThenZ : Prop :=
  (∀ s : State,
    (∀ yn zn, exec (.axedge false yn zn) s = .next { s with axis := .x, dispDir := .neutral }) ∧
    (∀ zn, exec (.axedge true false zn) s = .next { s with axis := .y, dispDir := .neutral }) ∧
    exec (.axedge true true false) s = .next { s with axis := .z, dispDir := .neutral } ∧
    exec (.axedge true true true) s = .next s) ∧
  (∀ xn yn zn, encode (.axedge xn yn zn) =
    .word (0x60000000 ||| ((BitVec.ofBool zn).setWidth 32 <<< 2) ||| ((BitVec.ofBool yn).setWidth 32 <<< 1) |||
      (BitVec.ofBool xn).setWidth 32))

/-- R97, R98 and R100: the stored codes, the feed values in thousandths and as text, the axis and sign characters, and the
variant a toggle bit selects. -/
def Obligations.EnumCodesAreTheRules : Prop :=
  (feedCode .nano = 0 ∧ feedCode .micro = 1 ∧ feedCode .milli = 2 ∧ feedCode .full = 3) ∧
  (feedMilli .nano = 1 ∧ feedMilli .micro = 10 ∧ feedMilli .milli = 100 ∧ feedMilli .full = 1000) ∧
  (magnitude .nano = [0x30, 0x2E, 0x30, 0x30, 0x31, 0x30, 0x30, 0x30] ∧
    magnitude .micro = [0x30, 0x2E, 0x30, 0x31, 0x30, 0x30, 0x30, 0x30] ∧
    magnitude .milli = [0x30, 0x2E, 0x31, 0x30, 0x30, 0x30, 0x30, 0x30] ∧
    magnitude .full = [0x31, 0x2E, 0x30, 0x30, 0x30, 0x30, 0x30, 0x30]) ∧
  (axisCode .x = 0 ∧ axisCode .y = 1 ∧ axisCode .z = 2) ∧
  (axisChar .x = 0x58 ∧ axisChar .y = 0x59 ∧ axisChar .z = 0x5A) ∧
  (senseCode .plus = 0b01 ∧ senseCode .minus = 0b11 ∧ senseCode .neutral = 0b00) ∧
  (∀ d : Sense, (senseCode d).toInt = senseInt d) ∧
  (∀ ix, signChar ix .plus = 0x2B ∧ signChar ix .minus = 0x2D) ∧
  (interlockCode .idle = 0 ∧ interlockCode .engaged = 1) ∧
  (variantCode .on = 0 ∧ variantCode .off = 1 ∧ ∀ bit, variantCode (variantOf bit) = BitVec.ofBool bit)

/-- R234: `DISP` is enabled by `TICK_PEND`; in IDLE it moves the selected axis by the direction times the feed, emits one
relative-move line (R105) and copies the direction; in ENGAGED it only clears the flag (R235). -/
def Obligations.DispMovesTheSelectedAxis : Prop :=
  (∀ s : State, s.tickPend = false → exec .disp s = .refused .dispNotEnabled) ∧
  (∀ (s : State) (sign : Byte), s.tickPend = true → s.emsState = .idle →
    (s.dir = .plus ∧ sign = 0x2B ∨ s.dir = .minus ∧ sign = 0x2D) →
    exec .disp s = .next
      { s with
        tickPend := false
        pos := movePosition s.axis (senseInt s.dir * feedMilli s.feed) s.pos
        dispDir := s.dir
        out := s.out ++ [.ser ([0x47, 0x32, 0x31, 0x47, 0x39, 0x31] ++ [axisChar s.axis, sign] ++ magnitude s.feed ++
          [0x46, 0x32, 0x30, 0x30, 0x30] ++ s.params.newline)]
        ghost := { s.ghost with nDisp := s.ghost.nDisp + 1 } }) ∧
  (∀ s : State, s.tickPend = true → s.emsState = .engaged → exec .disp s = .next { s with tickPend := false }) ∧
  encode .disp = .word 0x70000000

/-- R237 and R97: a processed tick changes the selected axis's position by exactly plus or minus 1, 10, 100 or 1000
thousandths, as the feed says, and no other axis's; a dropped one changes none (R235). -/
def Obligations.DispStepIsExactlyOneFeed : Prop :=
  ∀ (s t : State) (a : Axis), exec .disp s = .next t →
    (s.emsState = .engaged → t.pos = s.pos) ∧
    (s.emsState = .idle → a ≠ s.axis → posOf t.pos a = posOf s.pos a) ∧
    (s.emsState = .idle → a = s.axis → s.dir ≠ .neutral →
      (posOf t.pos a - posOf s.pos a).natAbs =
        (match s.feed with | .nano => 1 | .micro => 10 | .milli => 100 | .full => 1000) ∧
      (0 < posOf t.pos a - posOf s.pos a ↔ s.dir = .plus))

/-- R236: a tick moves the axis selected, and by the feed decoded, when it is dispatched: a `SCAN` and an `AXEDGE` between
the commit and the `DISP` change where and how far it moves. The last sentence is the spec's own inference, from R234 and
R70. -/
def Obligations.TickUsesTheAxisAndFeedOfItsDispatch : Prop :=
  ∀ (s : State) (r : BitVec 16) (xn yn zn : Bool), s.tickPend = true → s.emsState = .idle →
    (xn = false ∨ yn = false ∨ zn = false) →
    ∃ (a : Axis) (t : State), axisLine xn yn zn a = false ∧
      execList (Instr.press r ++ [.axedge xn yn zn, .disp]) s = .next t ∧
      t.pos = movePosition a (senseInt s.dir * feedMilli (feedDecode s.params r)) s.pos ∧
      t.axis = a ∧ t.dispDir = s.dir ∧ t.tickPend = false

/-- R235: while ENGAGED `DISP` only clears its flag, and the interlock state tested is the one when `DISP` runs: a tick
pending at a release is processed after it, and one pending when the interlock engages is dropped. That the state at the
dispatch decides is the spec's own inference, from R234 and R70. -/
def Obligations.PendingTickMeetsTheInterlockOfItsDispatch : Prop :=
  (∀ s : State, s.tickPend = true → s.emsState = .engaged → exec .disp s = .next { s with tickPend := false }) ∧
  (∀ s : State, s.tickPend = true → s.emsPend = true → s.emsState = .engaged → s.emsLast = false →
    ∃ t, execList [.emschk true, .disp] s = .next t ∧
      t.pos = movePosition s.axis (senseInt s.dir * feedMilli s.feed) s.pos ∧ t.tickPend = false ∧
      (serialLines t.out).length = (serialLines s.out).length + 1) ∧
  (∀ s : State, s.tickPend = true → s.emsPend = true → s.emsState = .idle → s.emsLast = true →
    ∃ t, execList [.emschk false, .disp] s = .next t ∧ t.pos = s.pos ∧ t.tickPend = false ∧
      t.out = s.out ++ [.ser (cancelLine s.params), .ems true])

/-- The model's choice of log entry 5, for states outside R42: a `DISP` with `DIR` = 0 moves nothing and its line carries
one of the two SIGN characters of R105, which one is not said. -/
def Obligations.DispWithoutDirectionHasAFreeSign : Prop :=
  ∀ s : State, s.tickPend = true → s.emsState = .idle → s.dir = .neutral →
    ∃ sign : Byte, (sign = 0x2B ∨ sign = 0x2D) ∧
      exec .disp s = .next
        { s with
          tickPend := false, dispDir := .neutral, freeIx := s.freeIx + 1,
          out := s.out ++ [.ser (moveLine s.params s.axis sign s.feed)],
          ghost := { s.ghost with nDisp := s.ghost.nDisp + 1 } }

/-- In the states of R42 no operation reads the free SIGN character (R22, log entry 5). -/
def Obligations.FreeSignIsNeverReadUnderInv : Prop :=
  ∀ (i : Instr) (s t : State), StateInv s → exec i s = .next t → t.freeIx = s.freeIx

/-- R240: `REFR` appends one frame with the seven values of the present state, and writes nothing else. -/
def Obligations.RefrAppendsOneFrame : Prop :=
  (∀ s : State, exec .refr s = .next
    { s with out := s.out ++
        [.frame s.axis s.feed (posOf s.pos .x) (posOf s.pos .y) (posOf s.pos .z) s.dispDir s.emsState] }) ∧
  encode .refr = .word 0x80000000

/-! ## Time, reset, contexts -/

/-- R269: `TADV d` adds `d` to `NOW` modulo 2^32 and writes nothing else. -/
def Obligations.TadvAddsModuloTwoToThe32 : Prop :=
  ∀ (s : State) (d : BitVec 28),
    (∃ now' : BitVec 32, now'.toNat = (s.now.toNat + d.toNat) % 4294967296 ∧
      exec (.tadv d) s = .next { s with now := now' }) ∧
    encode (.tadv d) = .word (0x90000000 ||| d.setWidth 32)

/-- R300: `RST` gives every state element of R20 to R37 its reset value, from any state; with the defaults of R5 these are
the values R300 lists. -/
def Obligations.RstGivesTheResetState : Prop :=
  (∀ s : State, ∃ t, exec .rst s = .next t ∧
    t.prev = s.params.qPrevReset ∧ t.acc = 0 ∧ t.dir = .neutral ∧ t.tickPend = false ∧
    t.btnMask = s.params.btnMaskReset.setWidth 16 ∧ t.toggle = 0 ∧ t.feed = s.params.feedReset ∧ t.scanPend = false ∧
    t.emsState = s.params.emsReset ∧
    t.emsLast = (match s.params.emsReset with | .idle => true | .engaged => false) ∧
    t.emsLastTs = 0 ∧ t.emsPend = false ∧ t.axis = s.params.axisReset ∧ t.dispDir = .neutral ∧
    t.pos = { x := 0, y := 0, z := 0 } ∧ t.now = 0 ∧ t.out = []) ∧
  (State.reset.prev = 0b00 ∧ State.reset.btnMask = 0x0FFF ∧ State.reset.feed = .nano ∧ State.reset.emsState = .idle ∧
    State.reset.emsLast = true ∧ State.reset.axis = .x) ∧
  exec .refr State.reset = .next { State.reset with out := [.frame .x .nano 0 0 0 .neutral .idle] } ∧
  encode .rst = .word 0x00000000

/-- The model's choice for its own fields (log entries 1, 5, 6 and 7): `RST` keeps the parameters, the rest of the run and
the counter of the free value, and clears the ghosts; a `RST` with the defaults, the run over and the counter at 0 gives
`State.reset`. -/
def Obligations.RstKeepsTheModelsOwnFields : Prop :=
  (∀ s : State, exec .rst s = .next { State.resetWith s.params with stim := s.stim, freeIx := s.freeIx }) ∧
  (∀ s t : State, exec .rst s = .next t → t.params = s.params ∧
    t.ghost = { nCommit := 0, nDisp := 0, fires := Vector.replicate 12 0, emsWakeTs := 0 }) ∧
  (∀ s : State, s.params = Config.defaults → s.stim = [] → s.freeIx = 0 → exec .rst s = .next State.reset)

/-- R301: after `RST` no task operation but `REFR` is enabled, and every interrupt operation, `REFR` and `TADV` are. -/
def Obligations.AfterResetOnlyInterruptsRun : Prop :=
  ∀ s t : State, exec .rst s = .next t →
    (t.tickPend = false ∧ t.scanPend = false ∧ t.emsPend = false ∧ t.emsState = s.params.emsReset) ∧
    (∀ r, ∃ why, exec (.scan r) t = .refused why) ∧ (∀ lvl, ∃ why, exec (.emschk lvl) t = .refused why) ∧
    (∃ why, exec .disp t = .refused why) ∧
    (∀ a b, ∃ u, exec (.qedge a b) t = .next u) ∧ (∃ u, exec .xchg t = .next u) ∧
    (∀ lvl, ∃ u, exec (.emsedge lvl) t = .next u) ∧ (∀ xn yn zn, ∃ u, exec (.axedge xn yn zn) t = .next u) ∧
    (∃ u, exec .refr t = .next u) ∧ (∀ d, ∃ u, exec (.tadv d) t = .next u)

/-- R260: an enabled operation has a next state for every operand value, one that is not enabled is refused, and nothing
faults. That a LUT entry is enabled only where its index can be formed is the model's reading (log entry 8). -/
def Obligations.EnabledRunsAndDisabledIsRefused : Prop :=
  (∀ (i : Instr) (s : State), enabled i s = true → ∃ t, exec i s = .next t) ∧
  (∀ (i : Instr) (s : State), enabled i s = false → ∃ why, exec i s = .refused why) ∧
  (∀ _ : Fault, False)

/-- R69: a task operation runs only when its pending flag is 1, and leaves it 0. -/
def Obligations.TaskConsumesItsFlag : Prop :=
  ∀ (i : Instr) (f : PendFlag) (s t : State), flagOf i = some f → exec i s = .next t →
    pending f s = true ∧ pending f t = false

/-- R74 and R270: an interrupt operation writes no output, signals at most one task, clears no flag, and touches neither
the scanner's, the interlock's nor the dispatcher's state. -/
def Obligations.InterruptOperationsOnlySignal : Prop :=
  ∀ (i : Instr) (s t : State), i.context = .interrupt → exec i s = .next t →
    t.out = s.out ∧ t.btnMask = s.btnMask ∧ t.toggle = s.toggle ∧ t.feed = s.feed ∧ t.emsState = s.emsState ∧
    t.emsLast = s.emsLast ∧ t.emsLastTs = s.emsLastTs ∧ t.pos = s.pos ∧ t.now = s.now ∧
    (t = { s with prev := t.prev, acc := t.acc, dir := t.dir, axis := t.axis, dispDir := t.dispDir, ghost := t.ghost } ∨
     ∃ f, pending f t = true ∧ ∀ g, g ≠ f → pending g t = pending g s)

/-- R265: two interrupt operations of different units commute: both orders reach the same state. -/
def Obligations.InterruptsOfDifferentUnitsCommute : Prop :=
  ∀ (i j : Instr) (s t : State), i.context = .interrupt → j.context = .interrupt → i.unitName ≠ j.unitName →
    execList [i, j] s = .next t → execList [j, i] s = .next t

/-- R68: each field has the writers the summary table of 10_state.md gives it, and `RST`. -/
def Obligations.EveryFieldHasItsOwner : Prop :=
  ∀ (i : Instr) (s t : State), exec i s = .next t → i ≠ .rst →
    ((t.prev ≠ s.prev ∨ t.acc ≠ s.acc ∨ t.dir ≠ s.dir ∨ (t.tickPend ≠ s.tickPend ∧ t.tickPend = true)) →
      i.unitName = .q) ∧
    ((t.tickPend ≠ s.tickPend ∧ t.tickPend = false) → i = .disp) ∧
    ((t.btnMask ≠ s.btnMask ∨ t.toggle ≠ s.toggle ∨ t.feed ≠ s.feed ∨
      (t.scanPend ≠ s.scanPend ∧ t.scanPend = false)) → ∃ r, i = .scan r) ∧
    ((t.scanPend ≠ s.scanPend ∧ t.scanPend = true) → i = .xchg) ∧
    ((t.emsState ≠ s.emsState ∨ t.emsLast ≠ s.emsLast ∨ t.emsLastTs ≠ s.emsLastTs ∨
      (t.emsPend ≠ s.emsPend ∧ t.emsPend = false)) → ∃ lvl, i = .emschk lvl) ∧
    ((t.emsPend ≠ s.emsPend ∧ t.emsPend = true) → ∃ lvl, i = .emsedge lvl) ∧
    (t.axis ≠ s.axis → ∃ xn yn zn, i = .axedge xn yn zn) ∧
    (t.dispDir ≠ s.dispDir → i = .disp ∨ ∃ xn yn zn, i = .axedge xn yn zn) ∧
    (t.pos ≠ s.pos → i = .disp) ∧
    (t.now ≠ s.now → ∃ d, i = .tadv d) ∧
    (t.out ≠ s.out → i = .disp ∨ i = .refr ∨ (∃ r, i = .scan r) ∨ ∃ lvl, i = .emschk lvl)

/-- R37: no operation but `RST` takes anything out of the output trace: it only appends. -/
def Obligations.OutputTraceOnlyGrows : Prop :=
  ∀ (i : Instr) (s t : State), i ≠ .rst → exec i s = .next t → ∃ es, t.out = s.out ++ es

/-- R39 and R66: no operation changes the parameters, the slot table among them; nor does any take from the rest of the
run (the model's field, log entry 6). -/
def Obligations.ParametersAreConstant : Prop :=
  ∀ (i : Instr) (s t : State), exec i s = .next t → t.params = s.params ∧ t.stim = s.stim

/-! ## Invariants -/

/-- R42: every step keeps the invariants. -/
def Obligations.StepKeepsTheStateInvariants : Prop :=
  ∀ s t : State, StateInv s → step s = .next t → StateInv t

/-- R42 and R243 (c): the invariants hold in the reset state, for every value of the parameters. -/
def Obligations.ResetMeetsTheInvariants : Prop :=
  (∀ p : Params, StateInv (State.resetWith p) ∧ TicksAccounted (State.resetWith p)) ∧
  StateInv State.reset ∧ TicksAccounted State.reset

/-- R243 (c): every step keeps the tick accounting: the processed ticks, and a pending one, are at most the commits. -/
def Obligations.StepKeepsTheTickAccounting : Prop :=
  ∀ s t : State, TicksAccounted s → step s = .next t → TicksAccounted t

/-- R78: no operation ever becomes permanently disabled: from every state of R42 some operations without a reset lead to
a state in which all three task operations are enabled. -/
def Obligations.NoTaskIsPermanentlyDisabled : Prop :=
  ∀ s : State, StateInv s → ∃ (l : List Instr) (t : State), .rst ∉ l ∧ execList l s = .next t ∧
    t.tickPend = true ∧ t.scanPend = true ∧ t.emsPend = true
end

