-- ==== Sys2Proof/Laws/Decode.lean ====
section
/-!
SUPPORT. The fields of a word that `makeWord` builds (R101), and what a word that the decoder accepts is made of.
-/

namespace Sys2Proof

/-- The 32 bits of `makeWord op payload`. -/
def wordOf (op : BitVec 4) (payload : BitVec 28) : BitVec 32 := (op.setWidth 32 <<< 28) ||| payload.setWidth 32

theorem makeWord_eq (op : BitVec 4) (payload : BitVec 28) : makeWord op payload = .word (wordOf op payload) := rfl

theorem getLsbD_wordOf (op : BitVec 4) (payload : BitVec 28) (i : Nat) :
    (wordOf op payload).getLsbD i = if i < 28 then payload.getLsbD i else decide (i < 32) && op.getLsbD (i - 28) := by
  simp only [wordOf, BitVec.getLsbD_or, BitVec.getLsbD_shiftLeft, BitVec.getLsbD_setWidth]
  by_cases h : i < 28
  · simp [h, show i < 32 by omega]
  · rw [BitVec.getLsbD_of_ge payload i (by omega)]
    by_cases h' : i < 32
    · simp [h, h', show i - 28 < 32 by omega]
    · simp [h, h']

theorem opField_wordOf (op : BitVec 4) (payload : BitVec 28) : opField (wordOf op payload) = op := by
  apply BitVec.eq_of_getLsbD_eq
  intro i hi
  simp only [opField, BitVec.getLsbD_extractLsb', getLsbD_wordOf]
  simp [hi, show 28 + i < 32 by omega]

theorem extractLsb'_wordOf (op : BitVec 4) (payload : BitVec 28) {lo len : Nat} (h : lo + len ≤ 28) :
    (wordOf op payload).extractLsb' lo len = payload.extractLsb' lo len := by
  apply BitVec.eq_of_getLsbD_eq
  intro i hi
  simp only [BitVec.getLsbD_extractLsb', getLsbD_wordOf]
  simp [show lo + i < 28 by omega]

/-- Every word is its operation code and its payload. -/
theorem wordOf_fields (w : BitVec 32) : wordOf (opField w) (w.extractLsb' 0 28) = w := by
  apply BitVec.eq_of_getLsbD_eq
  intro i hi
  simp only [getLsbD_wordOf, opField, BitVec.getLsbD_extractLsb']
  by_cases h : i < 28
  · simp [h]
  · simp [h, hi, show i - 28 < 4 by omega, show 28 + (i - 28) = i by omega]

theorem acceptIfZeroFrom_eq_ok {lo : Nat} {w : BitVec 32} {i j : Instr} :
    acceptIfZeroFrom lo w i = .ok j ↔ w.extractLsb' lo (28 - lo) = 0#(28 - lo) ∧ i = j := by
  unfold acceptIfZeroFrom payloadZeroFrom
  simp only [beq_iff_eq]
  split
  · simp [*]
  · simp [*]

end Sys2Proof
end

