-- ==== Sys2Proof/Laws/State.lean ====
section
/-!
SUPPORT. One lemma for each field of the state and each plain update of it, so that no later proof unfolds an update.
-/

namespace Sys2Proof.Machine

@[simp] theorem emit_prev (e : Event) (s : State) : (emit e s).prev = s.prev := rfl
@[simp] theorem emit_acc (e : Event) (s : State) : (emit e s).acc = s.acc := rfl
@[simp] theorem emit_dir (e : Event) (s : State) : (emit e s).dir = s.dir := rfl
@[simp] theorem emit_tickPend (e : Event) (s : State) : (emit e s).tickPend = s.tickPend := rfl
@[simp] theorem emit_btnMask (e : Event) (s : State) : (emit e s).btnMask = s.btnMask := rfl
@[simp] theorem emit_toggle (e : Event) (s : State) : (emit e s).toggle = s.toggle := rfl
@[simp] theorem emit_feed (e : Event) (s : State) : (emit e s).feed = s.feed := rfl
@[simp] theorem emit_scanPend (e : Event) (s : State) : (emit e s).scanPend = s.scanPend := rfl
@[simp] theorem emit_emsState (e : Event) (s : State) : (emit e s).emsState = s.emsState := rfl
@[simp] theorem emit_emsLast (e : Event) (s : State) : (emit e s).emsLast = s.emsLast := rfl
@[simp] theorem emit_emsLastTs (e : Event) (s : State) : (emit e s).emsLastTs = s.emsLastTs := rfl
@[simp] theorem emit_emsPend (e : Event) (s : State) : (emit e s).emsPend = s.emsPend := rfl
@[simp] theorem emit_axis (e : Event) (s : State) : (emit e s).axis = s.axis := rfl
@[simp] theorem emit_dispDir (e : Event) (s : State) : (emit e s).dispDir = s.dispDir := rfl
@[simp] theorem emit_pos (e : Event) (s : State) : (emit e s).pos = s.pos := rfl
@[simp] theorem emit_now (e : Event) (s : State) : (emit e s).now = s.now := rfl
@[simp] theorem emit_out (e : Event) (s : State) : (emit e s).out = s.out ++ [e] := rfl
@[simp] theorem emit_params (e : Event) (s : State) : (emit e s).params = s.params := rfl
@[simp] theorem emit_stim (e : Event) (s : State) : (emit e s).stim = s.stim := rfl
@[simp] theorem emit_freeIx (e : Event) (s : State) : (emit e s).freeIx = s.freeIx := rfl
@[simp] theorem emit_ghost (e : Event) (s : State) : (emit e s).ghost = s.ghost := rfl

@[simp] theorem wake_prev (f : PendFlag) (s : State) : (wake f s).prev = s.prev := by cases f <;> rfl
@[simp] theorem wake_acc (f : PendFlag) (s : State) : (wake f s).acc = s.acc := by cases f <;> rfl
@[simp] theorem wake_dir (f : PendFlag) (s : State) : (wake f s).dir = s.dir := by cases f <;> rfl
@[simp] theorem wake_tick_tickPend (s : State) : (wake .tick s).tickPend = true := rfl
@[simp] theorem wake_scan_tickPend (s : State) : (wake .scan s).tickPend = s.tickPend := rfl
@[simp] theorem wake_ems_tickPend (s : State) : (wake .ems s).tickPend = s.tickPend := rfl
@[simp] theorem wake_btnMask (f : PendFlag) (s : State) : (wake f s).btnMask = s.btnMask := by cases f <;> rfl
@[simp] theorem wake_toggle (f : PendFlag) (s : State) : (wake f s).toggle = s.toggle := by cases f <;> rfl
@[simp] theorem wake_feed (f : PendFlag) (s : State) : (wake f s).feed = s.feed := by cases f <;> rfl
@[simp] theorem wake_tick_scanPend (s : State) : (wake .tick s).scanPend = s.scanPend := rfl
@[simp] theorem wake_scan_scanPend (s : State) : (wake .scan s).scanPend = true := rfl
@[simp] theorem wake_ems_scanPend (s : State) : (wake .ems s).scanPend = s.scanPend := rfl
@[simp] theorem wake_emsState (f : PendFlag) (s : State) : (wake f s).emsState = s.emsState := by cases f <;> rfl
@[simp] theorem wake_emsLast (f : PendFlag) (s : State) : (wake f s).emsLast = s.emsLast := by cases f <;> rfl
@[simp] theorem wake_emsLastTs (f : PendFlag) (s : State) : (wake f s).emsLastTs = s.emsLastTs := by cases f <;> rfl
@[simp] theorem wake_tick_emsPend (s : State) : (wake .tick s).emsPend = s.emsPend := rfl
@[simp] theorem wake_scan_emsPend (s : State) : (wake .scan s).emsPend = s.emsPend := rfl
@[simp] theorem wake_ems_emsPend (s : State) : (wake .ems s).emsPend = true := rfl
@[simp] theorem wake_axis (f : PendFlag) (s : State) : (wake f s).axis = s.axis := by cases f <;> rfl
@[simp] theorem wake_dispDir (f : PendFlag) (s : State) : (wake f s).dispDir = s.dispDir := by cases f <;> rfl
@[simp] theorem wake_pos (f : PendFlag) (s : State) : (wake f s).pos = s.pos := by cases f <;> rfl
@[simp] theorem wake_now (f : PendFlag) (s : State) : (wake f s).now = s.now := by cases f <;> rfl
@[simp] theorem wake_out (f : PendFlag) (s : State) : (wake f s).out = s.out := by cases f <;> rfl
@[simp] theorem wake_params (f : PendFlag) (s : State) : (wake f s).params = s.params := by cases f <;> rfl
@[simp] theorem wake_stim (f : PendFlag) (s : State) : (wake f s).stim = s.stim := by cases f <;> rfl
@[simp] theorem wake_freeIx (f : PendFlag) (s : State) : (wake f s).freeIx = s.freeIx := by cases f <;> rfl
@[simp] theorem wake_ghost (f : PendFlag) (s : State) : (wake f s).ghost = s.ghost := by cases f <;> rfl

@[simp] theorem clearPend_prev (f : PendFlag) (s : State) : (clearPend f s).prev = s.prev := by cases f <;> rfl
@[simp] theorem clearPend_acc (f : PendFlag) (s : State) : (clearPend f s).acc = s.acc := by cases f <;> rfl
@[simp] theorem clearPend_dir (f : PendFlag) (s : State) : (clearPend f s).dir = s.dir := by cases f <;> rfl
@[simp] theorem clearPend_tick_tickPend (s : State) : (clearPend .tick s).tickPend = false := rfl
@[simp] theorem clearPend_scan_tickPend (s : State) : (clearPend .scan s).tickPend = s.tickPend := rfl
@[simp] theorem clearPend_ems_tickPend (s : State) : (clearPend .ems s).tickPend = s.tickPend := rfl
@[simp] theorem clearPend_btnMask (f : PendFlag) (s : State) : (clearPend f s).btnMask = s.btnMask := by cases f <;> rfl
@[simp] theorem clearPend_toggle (f : PendFlag) (s : State) : (clearPend f s).toggle = s.toggle := by cases f <;> rfl
@[simp] theorem clearPend_feed (f : PendFlag) (s : State) : (clearPend f s).feed = s.feed := by cases f <;> rfl
@[simp] theorem clearPend_tick_scanPend (s : State) : (clearPend .tick s).scanPend = s.scanPend := rfl
@[simp] theorem clearPend_scan_scanPend (s : State) : (clearPend .scan s).scanPend = false := rfl
@[simp] theorem clearPend_ems_scanPend (s : State) : (clearPend .ems s).scanPend = s.scanPend := rfl
@[simp] theorem clearPend_emsState (f : PendFlag) (s : State) : (clearPend f s).emsState = s.emsState := by cases f <;> rfl
@[simp] theorem clearPend_emsLast (f : PendFlag) (s : State) : (clearPend f s).emsLast = s.emsLast := by cases f <;> rfl
@[simp] theorem clearPend_emsLastTs (f : PendFlag) (s : State) : (clearPend f s).emsLastTs = s.emsLastTs := by cases f <;> rfl
@[simp] theorem clearPend_tick_emsPend (s : State) : (clearPend .tick s).emsPend = s.emsPend := rfl
@[simp] theorem clearPend_scan_emsPend (s : State) : (clearPend .scan s).emsPend = s.emsPend := rfl
@[simp] theorem clearPend_ems_emsPend (s : State) : (clearPend .ems s).emsPend = false := rfl
@[simp] theorem clearPend_axis (f : PendFlag) (s : State) : (clearPend f s).axis = s.axis := by cases f <;> rfl
@[simp] theorem clearPend_dispDir (f : PendFlag) (s : State) : (clearPend f s).dispDir = s.dispDir := by cases f <;> rfl
@[simp] theorem clearPend_pos (f : PendFlag) (s : State) : (clearPend f s).pos = s.pos := by cases f <;> rfl
@[simp] theorem clearPend_now (f : PendFlag) (s : State) : (clearPend f s).now = s.now := by cases f <;> rfl
@[simp] theorem clearPend_out (f : PendFlag) (s : State) : (clearPend f s).out = s.out := by cases f <;> rfl
@[simp] theorem clearPend_params (f : PendFlag) (s : State) : (clearPend f s).params = s.params := by cases f <;> rfl
@[simp] theorem clearPend_stim (f : PendFlag) (s : State) : (clearPend f s).stim = s.stim := by cases f <;> rfl
@[simp] theorem clearPend_freeIx (f : PendFlag) (s : State) : (clearPend f s).freeIx = s.freeIx := by cases f <;> rfl
@[simp] theorem clearPend_ghost (f : PendFlag) (s : State) : (clearPend f s).ghost = s.ghost := by cases f <;> rfl

@[simp] theorem acceptAxis_prev (a : Axis) (s : State) : (acceptAxis a s).prev = s.prev := rfl
@[simp] theorem acceptAxis_acc (a : Axis) (s : State) : (acceptAxis a s).acc = s.acc := rfl
@[simp] theorem acceptAxis_dir (a : Axis) (s : State) : (acceptAxis a s).dir = s.dir := rfl
@[simp] theorem acceptAxis_tickPend (a : Axis) (s : State) : (acceptAxis a s).tickPend = s.tickPend := rfl
@[simp] theorem acceptAxis_btnMask (a : Axis) (s : State) : (acceptAxis a s).btnMask = s.btnMask := rfl
@[simp] theorem acceptAxis_toggle (a : Axis) (s : State) : (acceptAxis a s).toggle = s.toggle := rfl
@[simp] theorem acceptAxis_feed (a : Axis) (s : State) : (acceptAxis a s).feed = s.feed := rfl
@[simp] theorem acceptAxis_scanPend (a : Axis) (s : State) : (acceptAxis a s).scanPend = s.scanPend := rfl
@[simp] theorem acceptAxis_emsState (a : Axis) (s : State) : (acceptAxis a s).emsState = s.emsState := rfl
@[simp] theorem acceptAxis_emsLast (a : Axis) (s : State) : (acceptAxis a s).emsLast = s.emsLast := rfl
@[simp] theorem acceptAxis_emsLastTs (a : Axis) (s : State) : (acceptAxis a s).emsLastTs = s.emsLastTs := rfl
@[simp] theorem acceptAxis_emsPend (a : Axis) (s : State) : (acceptAxis a s).emsPend = s.emsPend := rfl
@[simp] theorem acceptAxis_axis (a : Axis) (s : State) : (acceptAxis a s).axis = a := rfl
@[simp] theorem acceptAxis_dispDir (a : Axis) (s : State) : (acceptAxis a s).dispDir = .neutral := rfl
@[simp] theorem acceptAxis_pos (a : Axis) (s : State) : (acceptAxis a s).pos = s.pos := rfl
@[simp] theorem acceptAxis_now (a : Axis) (s : State) : (acceptAxis a s).now = s.now := rfl
@[simp] theorem acceptAxis_out (a : Axis) (s : State) : (acceptAxis a s).out = s.out := rfl
@[simp] theorem acceptAxis_params (a : Axis) (s : State) : (acceptAxis a s).params = s.params := rfl
@[simp] theorem acceptAxis_stim (a : Axis) (s : State) : (acceptAxis a s).stim = s.stim := rfl
@[simp] theorem acceptAxis_freeIx (a : Axis) (s : State) : (acceptAxis a s).freeIx = s.freeIx := rfl
@[simp] theorem acceptAxis_ghost (a : Axis) (s : State) : (acceptAxis a s).ghost = s.ghost := rfl

@[simp] theorem advanceTime_prev (d : BitVec 28) (s : State) : (advanceTime d s).prev = s.prev := rfl
@[simp] theorem advanceTime_acc (d : BitVec 28) (s : State) : (advanceTime d s).acc = s.acc := rfl
@[simp] theorem advanceTime_dir (d : BitVec 28) (s : State) : (advanceTime d s).dir = s.dir := rfl
@[simp] theorem advanceTime_tickPend (d : BitVec 28) (s : State) : (advanceTime d s).tickPend = s.tickPend := rfl
@[simp] theorem advanceTime_btnMask (d : BitVec 28) (s : State) : (advanceTime d s).btnMask = s.btnMask := rfl
@[simp] theorem advanceTime_toggle (d : BitVec 28) (s : State) : (advanceTime d s).toggle = s.toggle := rfl
@[simp] theorem advanceTime_feed (d : BitVec 28) (s : State) : (advanceTime d s).feed = s.feed := rfl
@[simp] theorem advanceTime_scanPend (d : BitVec 28) (s : State) : (advanceTime d s).scanPend = s.scanPend := rfl
@[simp] theorem advanceTime_emsState (d : BitVec 28) (s : State) : (advanceTime d s).emsState = s.emsState := rfl
@[simp] theorem advanceTime_emsLast (d : BitVec 28) (s : State) : (advanceTime d s).emsLast = s.emsLast := rfl
@[simp] theorem advanceTime_emsLastTs (d : BitVec 28) (s : State) : (advanceTime d s).emsLastTs = s.emsLastTs := rfl
@[simp] theorem advanceTime_emsPend (d : BitVec 28) (s : State) : (advanceTime d s).emsPend = s.emsPend := rfl
@[simp] theorem advanceTime_axis (d : BitVec 28) (s : State) : (advanceTime d s).axis = s.axis := rfl
@[simp] theorem advanceTime_dispDir (d : BitVec 28) (s : State) : (advanceTime d s).dispDir = s.dispDir := rfl
@[simp] theorem advanceTime_pos (d : BitVec 28) (s : State) : (advanceTime d s).pos = s.pos := rfl
@[simp] theorem advanceTime_now (d : BitVec 28) (s : State) : (advanceTime d s).now = s.now + d.setWidth 32 := rfl
@[simp] theorem advanceTime_out (d : BitVec 28) (s : State) : (advanceTime d s).out = s.out := rfl
@[simp] theorem advanceTime_params (d : BitVec 28) (s : State) : (advanceTime d s).params = s.params := rfl
@[simp] theorem advanceTime_stim (d : BitVec 28) (s : State) : (advanceTime d s).stim = s.stim := rfl
@[simp] theorem advanceTime_freeIx (d : BitVec 28) (s : State) : (advanceTime d s).freeIx = s.freeIx := rfl
@[simp] theorem advanceTime_ghost (d : BitVec 28) (s : State) : (advanceTime d s).ghost = s.ghost := rfl

@[simp] theorem pending_tick (s : State) : pending .tick s = s.tickPend := rfl
@[simp] theorem pending_scan (s : State) : pending .scan s = s.scanPend := rfl
@[simp] theorem pending_ems (s : State) : pending .ems s = s.emsPend := rfl

@[simp] theorem pending_wake (f : PendFlag) (s : State) : pending f (wake f s) = true := by cases f <;> rfl

@[simp] theorem pending_clearPend (f : PendFlag) (s : State) : pending f (clearPend f s) = false := by cases f <;> rfl

@[simp] theorem writeFeed_prev (f : Feed) (s : State) : (writeFeed f s).prev = s.prev := rfl
@[simp] theorem writeFeed_acc (f : Feed) (s : State) : (writeFeed f s).acc = s.acc := rfl
@[simp] theorem writeFeed_dir (f : Feed) (s : State) : (writeFeed f s).dir = s.dir := rfl
@[simp] theorem writeFeed_tickPend (f : Feed) (s : State) : (writeFeed f s).tickPend = s.tickPend := rfl
@[simp] theorem writeFeed_btnMask (f : Feed) (s : State) : (writeFeed f s).btnMask = s.btnMask := rfl
@[simp] theorem writeFeed_toggle (f : Feed) (s : State) : (writeFeed f s).toggle = s.toggle := rfl
@[simp] theorem writeFeed_feed (f : Feed) (s : State) : (writeFeed f s).feed = f := rfl
@[simp] theorem writeFeed_scanPend (f : Feed) (s : State) : (writeFeed f s).scanPend = s.scanPend := rfl
@[simp] theorem writeFeed_emsState (f : Feed) (s : State) : (writeFeed f s).emsState = s.emsState := rfl
@[simp] theorem writeFeed_emsLast (f : Feed) (s : State) : (writeFeed f s).emsLast = s.emsLast := rfl
@[simp] theorem writeFeed_emsLastTs (f : Feed) (s : State) : (writeFeed f s).emsLastTs = s.emsLastTs := rfl
@[simp] theorem writeFeed_emsPend (f : Feed) (s : State) : (writeFeed f s).emsPend = s.emsPend := rfl
@[simp] theorem writeFeed_axis (f : Feed) (s : State) : (writeFeed f s).axis = s.axis := rfl
@[simp] theorem writeFeed_dispDir (f : Feed) (s : State) : (writeFeed f s).dispDir = s.dispDir := rfl
@[simp] theorem writeFeed_pos (f : Feed) (s : State) : (writeFeed f s).pos = s.pos := rfl
@[simp] theorem writeFeed_now (f : Feed) (s : State) : (writeFeed f s).now = s.now := rfl
@[simp] theorem writeFeed_out (f : Feed) (s : State) : (writeFeed f s).out = s.out := rfl
@[simp] theorem writeFeed_params (f : Feed) (s : State) : (writeFeed f s).params = s.params := rfl
@[simp] theorem writeFeed_stim (f : Feed) (s : State) : (writeFeed f s).stim = s.stim := rfl
@[simp] theorem writeFeed_freeIx (f : Feed) (s : State) : (writeFeed f s).freeIx = s.freeIx := rfl
@[simp] theorem writeFeed_ghost (f : Feed) (s : State) : (writeFeed f s).ghost = s.ghost := rfl

@[simp] theorem writeLevels_prev (m : BitVec 16) (s : State) : (writeLevels m s).prev = s.prev := rfl
@[simp] theorem writeLevels_acc (m : BitVec 16) (s : State) : (writeLevels m s).acc = s.acc := rfl
@[simp] theorem writeLevels_dir (m : BitVec 16) (s : State) : (writeLevels m s).dir = s.dir := rfl
@[simp] theorem writeLevels_tickPend (m : BitVec 16) (s : State) : (writeLevels m s).tickPend = s.tickPend := rfl
@[simp] theorem writeLevels_btnMask (m : BitVec 16) (s : State) : (writeLevels m s).btnMask = m := rfl
@[simp] theorem writeLevels_toggle (m : BitVec 16) (s : State) : (writeLevels m s).toggle = s.toggle := rfl
@[simp] theorem writeLevels_feed (m : BitVec 16) (s : State) : (writeLevels m s).feed = s.feed := rfl
@[simp] theorem writeLevels_scanPend (m : BitVec 16) (s : State) : (writeLevels m s).scanPend = s.scanPend := rfl
@[simp] theorem writeLevels_emsState (m : BitVec 16) (s : State) : (writeLevels m s).emsState = s.emsState := rfl
@[simp] theorem writeLevels_emsLast (m : BitVec 16) (s : State) : (writeLevels m s).emsLast = s.emsLast := rfl
@[simp] theorem writeLevels_emsLastTs (m : BitVec 16) (s : State) : (writeLevels m s).emsLastTs = s.emsLastTs := rfl
@[simp] theorem writeLevels_emsPend (m : BitVec 16) (s : State) : (writeLevels m s).emsPend = s.emsPend := rfl
@[simp] theorem writeLevels_axis (m : BitVec 16) (s : State) : (writeLevels m s).axis = s.axis := rfl
@[simp] theorem writeLevels_dispDir (m : BitVec 16) (s : State) : (writeLevels m s).dispDir = s.dispDir := rfl
@[simp] theorem writeLevels_pos (m : BitVec 16) (s : State) : (writeLevels m s).pos = s.pos := rfl
@[simp] theorem writeLevels_now (m : BitVec 16) (s : State) : (writeLevels m s).now = s.now := rfl
@[simp] theorem writeLevels_out (m : BitVec 16) (s : State) : (writeLevels m s).out = s.out := rfl
@[simp] theorem writeLevels_params (m : BitVec 16) (s : State) : (writeLevels m s).params = s.params := rfl
@[simp] theorem writeLevels_stim (m : BitVec 16) (s : State) : (writeLevels m s).stim = s.stim := rfl
@[simp] theorem writeLevels_freeIx (m : BitVec 16) (s : State) : (writeLevels m s).freeIx = s.freeIx := rfl
@[simp] theorem writeLevels_ghost (m : BitVec 16) (s : State) : (writeLevels m s).ghost = s.ghost := rfl

end Sys2Proof.Machine
end

