-- ==== Sys2Proof/Laws/Operands.lean ====
section
/-!
SUPPORT. What the operand forms and the views of the output trace can give.
-/

namespace Sys2Proof.Machine

theorem lut_range (k : BitVec 4) : -1 ≤ lut k ∧ lut k ≤ 1 := by
  revert k; decide

theorem lut_unchanged (p : BitVec 2) : lut (lutIndex p p) = 0 := by
  revert p; decide

/-- Every sample is read by some `QEDGE`, whichever line is the more significant bit (R90). -/
theorem sample_qedgeOf (p : Params) (smp : BitVec 2) :
    ∃ a b, qedgeOf p smp = .qedge a b ∧ sample p a b = smp := by
  unfold qedgeOf sample
  cases p.qAIsMsb
  · exact ⟨_, _, rfl, by revert smp; decide⟩
  · exact ⟨_, _, rfl, by revert smp; decide⟩

theorem toInt_acc_range (a : BitVec 4) : -8 ≤ a.toInt ∧ a.toInt ≤ 7 := by
  revert a; decide

/-- A sum of magnitude at most 7 is stored in `ACC` exactly (R147). -/
theorem toInt_ofInt_acc {v : Int} (lo : -8 ≤ v) (hi : v ≤ 7) : (BitVec.ofInt 4 v).toInt = v := by
  rw [BitVec.toInt_ofInt, Int.bmod_def]
  omega

@[simp] theorem getLsbD_curMask (r : BitVec 16) (i : Nat) :
    (curMask r).getLsbD i = (decide (i < 12) && r.getLsbD i) := by
  simp only [curMask, BitVec.getLsbD_setWidth, BitVec.getLsbD_extractLsb']
  by_cases h : i < 12
  · simp [h, show i < 16 by omega]
  · simp [h]

theorem getLsbD_buttonField (i : Nat) : (0x0FFF#16).getLsbD i = decide (i < 12) := by
  by_cases h : i < 16
  · revert h
    revert i
    decide
  · rw [BitVec.getLsbD_of_ge _ _ (by omega)]
    simp
    omega

/-- Bit `i` of `newly` (R95, R174): the stored bit was 1 and the new level is 0. -/
@[simp] theorem getLsbD_pressEdges (old r : BitVec 16) (i : Nat) :
    (pressEdges old r).getLsbD i = (decide (i < 12) && old.getLsbD i && !r.getLsbD i) := by
  simp only [pressEdges, BitVec.getLsbD_and, BitVec.getLsbD_not, getLsbD_curMask, getLsbD_buttonField]
  by_cases h : i < 12
  · simp [h, show i < 16 by omega]
  · simp [h]

theorem getElem_writeToggle (t : BitVec 12) (i j : Fin 12) (b : Bool) :
    (writeToggle t i b)[j.val] = if j = i then b else t[j.val] := by
  have hj : j.val < 12 := j.isLt
  simp only [← BitVec.getLsbD_eq_getElem]
  by_cases h : j = i
  · subst h
    cases b <;> simp [writeToggle, hj]
  · have hbit : (1#12 <<< i.val).getLsbD j.val = false := by
      have hne : j.val ≠ i.val := fun e => h (Fin.ext e)
      simp only [BitVec.getLsbD_shiftLeft, BitVec.getLsbD_one]
      by_cases hlt : j.val < i.val
      · simp [hlt]
      · have : ¬ (j.val - i.val = 0) := by omega
        simp [this]
    rw [if_neg h]
    cases b
    · simp only [writeToggle, Bool.false_eq_true, if_false, BitVec.getLsbD_and, BitVec.getLsbD_not, hbit]
      simp [hj]
    · simp only [writeToggle, if_true, BitVec.getLsbD_or, hbit, Bool.or_false]

/-- The guard test is the modular comparison of R201. -/
theorem guardPassed_eq_true {now ts : BitVec 32} :
    guardPassed now ts = true ↔ 100 ≤ (now.toNat + 4294967296 - ts.toNat) % 4294967296 := by
  have hsub : (elapsedMs now ts).toNat = (now.toNat + 4294967296 - ts.toNat) % 4294967296 := by
    have := ts.isLt
    rw [elapsedMs, BitVec.toNat_sub]
    congr 1
    omega
  have hguard : Config.emsGuardMs.toNat = 100 := rfl
  rw [guardPassed, decide_eq_true_iff, hsub, hguard]

theorem axisSelect_eq_some {xn yn zn : Bool} {a : Axis} (h : axisSelect xn yn zn = some a) :
    axisLine xn yn zn a = false := by
  revert h; cases xn <;> cases yn <;> cases zn <;> cases a <;> decide

theorem axisSelect_eq_none {xn yn zn : Bool} :
    axisSelect xn yn zn = none ↔ xn = true ∧ yn = true ∧ zn = true := by
  cases xn <;> cases yn <;> cases zn <;> decide

theorem posOf_movePosition (a b : Axis) (d : Int) (p : Position) :
    posOf (movePosition a d p) b = posOf p b + if b = a then d else 0 := by
  cases a <;> cases b <;> simp [posOf, movePosition]

theorem serialLines_append (l m : List Event) : serialLines (l ++ m) = serialLines l ++ serialLines m := by
  induction l with
  | nil => rfl
  | cons e rest ih => cases e <;> simp [serialLines, ih]

end Sys2Proof.Machine
end

