-- ==== Sys2Proof/Laws/Ops.lean ====
section
/-!
SUPPORT. For each shared operation, once, everything it can do.
-/

namespace Sys2Proof.Machine

/-! ## Unit Q -/

/-- A changed sample either commits a tick or moves `ACC` by the step (R130, R147, R148). -/
theorem accumulate_cases (smp : BitVec 2) (step : Int) (s : State) :
    (s.acc.toInt + step = 4 ∧
      accumulate smp step s = { s with
        prev := smp, acc := 0, dir := .plus, tickPend := true,
        ghost := { s.ghost with nCommit := s.ghost.nCommit + 1 } }) ∨
    (s.acc.toInt + step = -4 ∧
      accumulate smp step s = { s with
        prev := smp, acc := 0, dir := .minus, tickPend := true,
        ghost := { s.ghost with nCommit := s.ghost.nCommit + 1 } }) ∨
    (s.acc.toInt + step ≠ 4 ∧ s.acc.toInt + step ≠ -4 ∧
      accumulate smp step s = { s with prev := smp, acc := BitVec.ofInt 4 (s.acc.toInt + step) }) := by
  unfold accumulate
  by_cases h4 : s.acc.toInt + step = 4
  · exact .inl ⟨h4, by simp [h4, Config.detentSteps, commitTick, wake, signSense]⟩
  · by_cases hm : s.acc.toInt + step = -4
    · exact .inr (.inl ⟨hm, by simp [hm, Config.detentSteps, commitTick, wake, signSense]⟩)
    · exact .inr (.inr ⟨h4, hm, by simp [h4, hm, Config.detentSteps]⟩)

/-- A sample equal to `PREV` writes nothing (R149); any other is accumulated with its table entry (R130). -/
theorem takeSample_cases (smp : BitVec 2) (s : State) :
    (smp = s.prev ∧ takeSample smp s = s) ∨
    (smp ≠ s.prev ∧ takeSample smp s = accumulate smp (lut (lutIndex s.prev smp)) s) := by
  unfold takeSample
  by_cases h : smp = s.prev
  · exact .inl ⟨h, by simp [h]⟩
  · exact .inr ⟨h, by simp [h]⟩

/-- A table entry runs exactly when its index's upper half is `PREV` (R91). -/
theorem decodeEntry_eq_next {frm smp : BitVec 2} {step : Int} {s t : State} :
    decodeEntry frm smp step s = .next t ↔
      s.prev = frm ∧ t = if smp = frm then s else accumulate smp step s := by
  unfold decodeEntry
  by_cases h : s.prev = frm <;> simp [h, eq_comm]

/-! ## Unit S -/

/-- The two events of a fire of slot `i` with toggle bit `bit` (R176). -/
def fireEvents (p : Params) (i : Fin 12) (bit : Bool) : List Event :=
  [.ser (commandLine p i (variantOf bit)), .fired i (variantOf bit)]

theorem handlePress_engaged (i : Fin 12) (s : State) :
    handlePress true i s = { s with out := s.out ++ [.warn] } := rfl

theorem handlePress_idle (i : Fin 12) (s : State) :
    handlePress false i s = { s with
      out := s.out ++ fireEvents s.params i (s.toggle[i.val])
      toggle := writeToggle s.toggle i (!s.toggle[i.val])
      ghost := { s.ghost with fires := s.ghost.fires.set i (s.ghost.fires[i] + 1) } } := by
  simp [handlePress, fireSlot, emit, fireEvents]

/-- With the interlock ENGAGED the loop appends one warning for each press edge and writes nothing else (R177). -/
theorem handlePresses_engaged (newly : BitVec 16) (slots : List (Fin 12)) (s : State) :
    handlePresses true newly slots s =
      { s with out := s.out ++ (slots.filter fun i => newly.getLsbD i.val).map fun _ => Event.warn } := by
  induction slots generalizing s with
  | nil => simp [handlePresses]
  | cons i rest ih =>
    simp only [handlePresses, List.foldl_cons] at ih ⊢
    rw [ih]
    by_cases h : newly.getLsbD i.val
    · simp [h, handlePress_engaged]
    · simp [h]

/-- With the interlock IDLE the loop fires each press edge of `slots`, in order, with the toggle bit the slot had before
the loop, and flips that bit once (R176, R180). -/
theorem handlePresses_idle (newly : BitVec 16) {slots : List (Fin 12)} (nodup : slots.Nodup) (s : State) :
    ∃ toggle fires,
      handlePresses false newly slots s = { s with
        out := s.out ++ (slots.filter fun i => newly.getLsbD i.val).flatMap fun i =>
          fireEvents s.params i (s.toggle[i.val])
        toggle := toggle
        ghost := { s.ghost with fires := fires } } ∧
      (∀ j : Fin 12, toggle[j.val] =
        if j ∈ slots ∧ newly.getLsbD j.val = true then !s.toggle[j.val] else s.toggle[j.val]) ∧
      (∀ j : Fin 12, fires[j] =
        if j ∈ slots ∧ newly.getLsbD j.val = true then s.ghost.fires[j] + 1 else s.ghost.fires[j]) := by
  induction slots generalizing s with
  | nil => exact ⟨s.toggle, s.ghost.fires, by simp [handlePresses]⟩
  | cons i rest ih =>
    obtain ⟨hi, hrest⟩ := List.nodup_cons.mp nodup
    simp only [handlePresses, List.foldl_cons] at ih ⊢
    by_cases h : newly.getLsbD i.val
    · obtain ⟨toggle, fires, hrun, ht, hf⟩ := ih hrest (handlePress false i s)
      refine ⟨toggle, fires, ?_, fun j => ?_, fun j => ?_⟩
      · simp only [h, if_true]
        rw [hrun, handlePress_idle]
        have hkeep : ∀ j ∈ rest.filter fun j => newly.getLsbD j.val,
            fireEvents s.params j ((writeToggle s.toggle i (!s.toggle[i.val]))[j.val])
              = fireEvents s.params j (s.toggle[j.val]) := by
          intro j hj
          have hne : j ≠ i := fun e => hi (e ▸ (List.mem_filter.mp hj).1)
          rw [getElem_writeToggle, if_neg hne]
        simp [h, List.flatMap_def, List.map_congr_left hkeep]
      · rw [ht, handlePress_idle]
        by_cases hj : j = i
        · subst hj; simp [hi, h, getElem_writeToggle]
        · simp [hj, getElem_writeToggle]
      · rw [hf, handlePress_idle]
        by_cases hj : j = i
        · subst hj; simp [hi, h]
        · have hne : i.val ≠ j.val := fun e => hj (Fin.ext e.symm)
          simp [hj, hne]
    · obtain ⟨toggle, fires, hrun, ht, hf⟩ := ih hrest s
      refine ⟨toggle, fires, by simpa [h] using hrun, fun j => ?_, fun j => ?_⟩
      · rw [ht]
        by_cases hj : j = i
        · subst hj; simp [hi, h]
        · simp [hj]
      · rw [hf]
        by_cases hj : j = i
        · subst hj; simp [hi, h]
        · simp [hj]

theorem slotNumbers_nodup : Config.slotNumbers.Nodup := by decide

theorem mem_slotNumbers (i : Fin 12) : i ∈ Config.slotNumbers := by revert i; decide

/-- The body of `SCAN` is the feed decode, the loop and the mask update (R172). -/
theorem scanBody_eq (r : BitVec 16) (s : State) :
    scanBody r s =
      writeLevels (curMask r) (handlePresses (s.emsState == .engaged) (pressEdges s.btnMask r) Config.slotNumbers
        (writeFeed (feedDecode s.params r) s)) := rfl

/-! ## Unit E -/

theorem wakeInterlock_eq (s : State) :
    wakeInterlock s = { s with
      emsPend := true
      ghost := { s.ghost with emsWakeTs := if s.emsPend then s.ghost.emsWakeTs else s.now } } := rfl

/-- A confirmed low level engages and emits the cancel sequence and the red banner (R203). -/
theorem acceptTransition_low (s : State) :
    acceptTransition false s = { s with
      emsLast := false, emsLastTs := s.now, emsState := .engaged,
      out := s.out ++ [.ser (cancelLine s.params), .ems true] } := by
  simp [acceptTransition, emit, interlockOf]

/-- A confirmed high level releases and emits the green banner only (R204). -/
theorem acceptTransition_high (s : State) :
    acceptTransition true s = { s with
      emsLast := true, emsLastTs := s.now, emsState := .idle, out := s.out ++ [.ems false] } := by
  simp [acceptTransition, emit, interlockOf]

/-! ## The environment and the step -/

theorem resetAll_eq (s : State) :
    resetAll s = { State.resetWith s.params with stim := s.stim, freeIx := s.freeIx } := by
  cases h : s.params.emsReset <;> simp [resetAll, State.resetWith, stableLevel, h]

theorem fetch_eq_some {s t : State} {x : Stimulus} :
    fetch s = some (x, t) ↔ s.stim = x :: t.stim ∧ t = { s with stim := t.stim } := by
  unfold fetch
  cases h : s.stim with
  | nil => simp
  | cons y rest =>
    constructor
    · intro e
      cases e
      exact ⟨rfl, rfl⟩
    · rintro ⟨e, ht⟩
      obtain ⟨rfl, e2⟩ := List.cons.inj e
      rw [ht, e2]

/-- After `selectNext i` the operation `i` is enabled (R40, R69, R91). -/
theorem enabled_selectNext (i : Instr) (s : State) : enabled i (selectNext i s) = true := by
  cases i <;> simp [enabled, selectNext, flagOf, indexPrev, encode, makeWord]

/-- A step with a next state ran the instruction the decoder read from the next stimulus. -/
theorem step_eq_next {s t : State} :
    step s = .next t ↔
      ∃ x rest i, s.stim = x :: rest ∧ decode x = .ok i ∧ exec i { s with stim := rest } = .next t := by
  unfold step fetch
  cases hs : s.stim with
  | nil => simp
  | cons x rest =>
    cases hd : decode x with
    | error e => simp [hd]
    | ok i => simp [hd]

theorem execList_append (l m : List Instr) (s t : State) (h : execList l s = .next t) :
    execList (l ++ m) s = execList m t := by
  induction l generalizing s with
  | nil =>
    cases h
    rfl
  | cons i rest ih =>
    simp only [execList, List.cons_append] at h ⊢
    cases he : exec i s with
    | next u => rw [he] at h; exact ih u h
    | fault f => rw [he] at h; cases h
    | refused r => rw [he] at h; cases h

@[simp] theorem runTime_nil : runTime [] = 0 := rfl

@[simp] theorem runTime_cons (i : Instr) (l : List Instr) : runTime (i :: l) = duration i + runTime l := by
  simp [runTime]

/-- The loop of `SCAN` touches neither the interlock nor the time (R176, R177). -/
theorem handlePresses_keeps_interlock (eng : Bool) (newly : BitVec 16) (slots : List (Fin 12)) (s : State) :
    (handlePresses eng newly slots s).emsState = s.emsState ∧ (handlePresses eng newly slots s).emsLast = s.emsLast ∧
    (handlePresses eng newly slots s).emsLastTs = s.emsLastTs ∧
    (handlePresses eng newly slots s).emsPend = s.emsPend ∧ (handlePresses eng newly slots s).now = s.now := by
  induction slots generalizing s with
  | nil => simp [handlePresses]
  | cons i rest ih =>
    simp only [handlePresses, List.foldl_cons] at ih ⊢
    obtain ⟨h1, h2, h3, h4, h5⟩ := ih (if newly.getLsbD i.val then handlePress eng i s else s)
    rw [h1, h2, h3, h4, h5]
    split
    · cases eng <;> simp [handlePress, fireSlot]
    · simp

/-! ## The task operations: when they run, and on what -/

theorem execScan_eq_next {r : BitVec 16} {s t : State} :
    execScan r s = .next t ↔ s.scanPend = true ∧ t = scanBody r (clearPend .scan s) := by
  unfold execScan
  cases h : s.scanPend <;> simp [h, eq_comm]

theorem execEmschk_eq_next {lvl : Bool} {s t : State} :
    execEmschk lvl s = .next t ↔ s.emsPend = true ∧
      t = if lvl ≠ s.emsLast then acceptTransition lvl (clearPend .ems s) else clearPend .ems s := by
  unfold execEmschk
  cases h : s.emsPend <;> simp [h, eq_comm]

theorem execDisp_eq_next {s t : State} :
    execDisp s = .next t ↔ s.tickPend = true ∧
      t = if s.emsState = .idle then dispatchTick (clearPend .tick s) else clearPend .tick s := by
  unfold execDisp
  cases h : s.tickPend <;> simp [h, eq_comm]

end Sys2Proof.Machine
end

