-- ==== Sys2Proof/Laws/PerInstr.lean ====
section
/-!
SUPPORT. Statements made once for each constructor of `Instr`.
-/

/-! ## Every instruction is encoded into the row of its own mnemonic -/

/-- The stimulus that `encode` writes for `i` is one that the opcode table's row of `i`'s mnemonic admits. -/
def Sys2Proof.Laws.EncodesToItsRow.Statement (i : Sys2Proof.Instr) : Prop :=
  match Sys2Proof.encode i with
  | .word w => ∃ row ∈ Sys2Proof.wordRows, row.mnemonic = i.mnemonic ∧ row.admits w = true
  | .index k => Sys2Proof.indexRows[k.toNat]? = some i.mnemonic

namespace Sys2Proof.Laws.EncodesToItsRow

theorem rst : Statement .rst := ⟨⟨"RST", 0x00000000, 0xFFFFFFFF⟩, by decide, rfl, by decide⟩
theorem qedge (a b : Bool) : Statement (.qedge a b) :=
  ⟨⟨"QEDGE", 0x10000000, 0xFFFFFFFC⟩, by decide, rfl, by cases a <;> cases b <;> decide⟩
theorem xchg : Statement .xchg := ⟨⟨"XCHG", 0x20000000, 0xFFFFFFFF⟩, by decide, rfl, by decide⟩

theorem scan (r : BitVec 16) : Statement (.scan r) := by
  refine ⟨⟨"SCAN", 0x30000000, 0xFFFF0000⟩, by decide, rfl, ?_⟩
  simp only [WordRow.admits, beq_iff_eq]
  apply BitVec.eq_of_getLsbD_eq
  intro i hi
  interval_cases i <;> simp

theorem emsedge (lvl : Bool) : Statement (.emsedge lvl) :=
  ⟨⟨"EMSEDGE", 0x40000000, 0xFFFFFFFE⟩, by decide, rfl, by cases lvl <;> decide⟩
theorem emschk (lvl : Bool) : Statement (.emschk lvl) :=
  ⟨⟨"EMSCHK", 0x50000000, 0xFFFFFFFE⟩, by decide, rfl, by cases lvl <;> decide⟩

theorem axedge (xn yn zn : Bool) : Statement (.axedge xn yn zn) :=
  ⟨⟨"AXEDGE", 0x60000000, 0xFFFFFFF8⟩, by decide, rfl, by cases xn <;> cases yn <;> cases zn <;> decide⟩

theorem disp : Statement .disp := ⟨⟨"DISP", 0x70000000, 0xFFFFFFFF⟩, by decide, rfl, by decide⟩
theorem refr : Statement .refr := ⟨⟨"REFR", 0x80000000, 0xFFFFFFFF⟩, by decide, rfl, by decide⟩

theorem tadv (d : BitVec 28) : Statement (.tadv d) := by
  refine ⟨⟨"TADV", 0x90000000, 0xF0000000⟩, by decide, rfl, ?_⟩
  simp only [WordRow.admits, beq_iff_eq]
  apply BitVec.eq_of_getLsbD_eq
  intro i hi
  interval_cases i <;> simp

theorem lut0 : Statement .lut0 := rfl
theorem lut1 : Statement .lut1 := rfl
theorem lut2 : Statement .lut2 := rfl
theorem lut3 : Statement .lut3 := rfl
theorem lut4 : Statement .lut4 := rfl
theorem lut5 : Statement .lut5 := rfl
theorem lut6 : Statement .lut6 := rfl
theorem lut7 : Statement .lut7 := rfl
theorem lut8 : Statement .lut8 := rfl
theorem lut9 : Statement .lut9 := rfl
theorem lut10 : Statement .lut10 := rfl
theorem lut11 : Statement .lut11 := rfl
theorem lut12 : Statement .lut12 := rfl
theorem lut13 : Statement .lut13 := rfl
theorem lut14 : Statement .lut14 := rfl
theorem lut15 : Statement .lut15 := rfl

end Sys2Proof.Laws.EncodesToItsRow
end

