-- ==== Sys2Proof/Tests/Slice0.lean ====
section
/-!
SUPPORT. Tests. The expected results are the spec's: the encodings of R102 and R92 written out bit by bit, the words of
95_test_vectors.md section 2.8, and the vectors of its section 2, each named where it is used. After them stands one
witness for each hypothesis of an obligation: a concrete state and operands that meet it.
-/

namespace Sys2Proof.Tests

open Sys2Proof Sys2Proof.Machine

/-! ## Well-formedness: each check refuses an ill-formed term -/

theorem test_wellFormed_defaults : Config.defaults.wellFormed = true := by decide
theorem test_wellFormed_refuses_micro_in_buttons :
    { Config.defaults with feedBitMicro := 11 }.feedBitsInRange = false := by decide
theorem test_wellFormed_refuses_milli_in_buttons :
    { Config.defaults with feedBitMilli := 11 }.feedBitsInRange = false := by decide
theorem test_wellFormed_refuses_full_in_buttons :
    { Config.defaults with feedBitFull := 0 }.feedBitsInRange = false := by decide
theorem test_wellFormed_refuses_micro_equal_milli :
    { Config.defaults with feedBitMicro := 13 }.feedBitsDistinct = false := by decide
theorem test_wellFormed_refuses_micro_equal_full :
    { Config.defaults with feedBitMicro := 14 }.feedBitsDistinct = false := by decide
theorem test_wellFormed_refuses_milli_equal_full :
    { Config.defaults with feedBitMilli := 14 }.feedBitsDistinct = false := by decide
theorem test_wellFormed_refuses_range_alone :
    { Config.defaults with feedBitMicro := 11 }.wellFormed = false := by decide
theorem test_wellFormed_refuses_distinct_alone :
    { Config.defaults with feedBitMicro := 13 }.wellFormed = false := by decide
theorem test_wellFormed_refuses_reserved_op : (Stimulus.word 0xA0000000).wellFormed = false := by decide
theorem test_wellFormed_refuses_payload_bit : (Stimulus.word 0x10000004).wellFormed = false := by decide
theorem test_wellFormed_accepts_every_index : ∀ k : BitVec 4, (Stimulus.index k).wellFormed = true := by decide

/-! ## Decoding: a word of every constructor, written out from R102, and an index from R91 -/

theorem test_decode_rst : decodeWord 0b00000000000000000000000000000000 = .ok .rst := by decide
theorem test_decode_qedge : decodeWord 0b00010000000000000000000000000010 = .ok (.qedge true false) := by decide
theorem test_decode_xchg : decodeWord 0b00100000000000000000000000000000 = .ok .xchg := by decide
theorem test_decode_scan : decodeWord 0b00110000000000001101111111111111 = .ok (.scan 0xDFFF) := by decide
theorem test_decode_emsedge : decodeWord 0b01000000000000000000000000000001 = .ok (.emsedge true) := by decide
theorem test_decode_emschk : decodeWord 0b01010000000000000000000000000000 = .ok (.emschk false) := by decide
theorem test_decode_axedge :
    decodeWord 0b01100000000000000000000000000110 = .ok (.axedge false true true) := by decide
theorem test_decode_disp : decodeWord 0b01110000000000000000000000000000 = .ok .disp := by decide
theorem test_decode_refr : decodeWord 0b10000000000000000000000000000000 = .ok .refr := by decide
theorem test_decode_tadv : decodeWord 0b10010000000000000000000001100100 = .ok (.tadv 100) := by decide
theorem test_decode_lut0 : decode (.index 0b0000) = .ok .lut0 := by decide
theorem test_decode_lut1 : decode (.index 0b0001) = .ok .lut1 := by decide
theorem test_decode_lut2 : decode (.index 0b0010) = .ok .lut2 := by decide
theorem test_decode_lut3 : decode (.index 0b0011) = .ok .lut3 := by decide
theorem test_decode_lut4 : decode (.index 0b0100) = .ok .lut4 := by decide
theorem test_decode_lut5 : decode (.index 0b0101) = .ok .lut5 := by decide
theorem test_decode_lut6 : decode (.index 0b0110) = .ok .lut6 := by decide
theorem test_decode_lut7 : decode (.index 0b0111) = .ok .lut7 := by decide
theorem test_decode_lut8 : decode (.index 0b1000) = .ok .lut8 := by decide
theorem test_decode_lut9 : decode (.index 0b1001) = .ok .lut9 := by decide
theorem test_decode_lut10 : decode (.index 0b1010) = .ok .lut10 := by decide
theorem test_decode_lut11 : decode (.index 0b1011) = .ok .lut11 := by decide
theorem test_decode_lut12 : decode (.index 0b1100) = .ok .lut12 := by decide
theorem test_decode_lut13 : decode (.index 0b1101) = .ok .lut13 := by decide
theorem test_decode_lut14 : decode (.index 0b1110) = .ok .lut14 := by decide
theorem test_decode_lut15 : decode (.index 0b1111) = .ok .lut15 := by decide

/-- Section 2.8: words that spell no operation, with the reason. -/
theorem test_decode_refuses_payloads :
    decodeWord 0x10000004 = .error .nonzeroPayload ∧ decodeWord 0x20000001 = .error .nonzeroPayload ∧
    decodeWord 0x3001FFFF = .error .nonzeroPayload ∧ decodeWord 0x60000008 = .error .nonzeroPayload := by decide
theorem test_decode_refuses_reserved_op :
    decodeWord 0xA0000000 = .error .reservedOp ∧ decodeWord 0xFFFFFFFF = .error .reservedOp := by decide

/-- The table's own numbering: a STIM32 row has 32 bits, a QIDX4 row one byte, and bits outside are refused. -/
theorem test_decodeTableWord :
    decodeTableWord 32 0x60000005 = some (.axedge true false true) ∧ decodeTableWord 8 7 = some .lut7 ∧
    decodeTableWord 8 16 = none ∧ decodeTableWord 32 0xA0000000 = none := by decide

/-- R108's written form, section 2.8's first columns. -/
theorem test_written : (Instr.axedge true false true).written = "AXEDGE 1 0 1" := by decide

/-! ## One step of each instruction -/

/-- The result of `exec i s` is a next state with the property `good`. -/
def ran (i : Instr) (s : State) (good : State → Bool) : Bool :=
  match exec i s with
  | .next t => good t
  | .fault _ => false
  | .refused _ => false

/-- The unit Q fields in the order of section 2.2's columns. -/
def unitQ (s : State) : BitVec 2 × Int × Sense × Bool := (s.prev, s.acc.toInt, s.dir, s.tickPend)

/-- The reset state with unit Q as a row of section 2.2 gives it. -/
def withQ (prev : BitVec 2) (acc : Int) (dir : Sense) (tick : Bool) : State :=
  { State.reset with prev := prev, acc := BitVec.ofInt 4 acc, dir := dir, tickPend := tick }

/-- Row Q8. -/
theorem test_qedge_commits : ran (.qedge false false) (withQ 0b01 3 .neutral false)
    (fun t => unitQ t = (0b00, 0, .plus, true)) = true := by decide
/-- Row Q12. -/
theorem test_qedge_overwrites_pending : ran (.qedge true false) (withQ 0b00 3 .minus true)
    (fun t => unitQ t = (0b10, 0, .plus, true)) = true := by decide

/-! Each table entry, on the row of section 2.2 with its index, or where there is none on the entry's own rule. -/

/-- Row Q15. -/
theorem test_lut0 : ran .lut0 (withQ 0b00 0 .plus true) (fun t => unitQ t = (0b00, 0, .plus, true)) = true := by decide
/-- Row Q11. -/
theorem test_lut1 : ran .lut1 (withQ 0b00 (-3) .plus false)
    (fun t => unitQ t = (0b01, 0, .minus, true)) = true := by decide
/-- Row Q13. -/
theorem test_lut2 : ran .lut2 (withQ 0b00 (-3) .neutral false)
    (fun t => unitQ t = (0b10, -2, .neutral, false)) = true := by decide
/-- Row Q4. -/
theorem test_lut3 : ran .lut3 (withQ 0b00 2 .neutral false)
    (fun t => unitQ t = (0b11, 2, .neutral, false)) = true := by decide
/-- Row Q8. -/
theorem test_lut4 : ran .lut4 (withQ 0b01 3 .neutral false)
    (fun t => unitQ t = (0b00, 0, .plus, true)) = true := by decide
/-- R136. -/
theorem test_lut5 : ran .lut5 (withQ 0b01 2 .neutral false)
    (fun t => unitQ t = (0b01, 2, .neutral, false)) = true := by decide
/-- Row Q5. -/
theorem test_lut6 : ran .lut6 (withQ 0b01 (-2) .neutral false)
    (fun t => unitQ t = (0b10, -2, .neutral, false)) = true := by decide
/-- Section 1.2, second table, step 2. -/
theorem test_lut7 : ran .lut7 (withQ 0b01 (-1) .neutral false)
    (fun t => unitQ t = (0b11, -2, .neutral, false)) = true := by decide
/-- Row Q9. -/
theorem test_lut8 : ran .lut8 (withQ 0b10 (-3) .neutral false)
    (fun t => unitQ t = (0b00, 0, .minus, true)) = true := by decide
/-- Row Q6. -/
theorem test_lut9 : ran .lut9 (withQ 0b10 1 .neutral false)
    (fun t => unitQ t = (0b01, 1, .neutral, false)) = true := by decide
/-- Row Q3. -/
theorem test_lut10 : ran .lut10 (withQ 0b10 2 .neutral false)
    (fun t => unitQ t = (0b10, 2, .neutral, false)) = true := by decide
/-- Section 1.2, first table, step 2. -/
theorem test_lut11 : ran .lut11 (withQ 0b10 1 .neutral false)
    (fun t => unitQ t = (0b11, 2, .neutral, false)) = true := by decide
/-- Row Q7. -/
theorem test_lut12 : ran .lut12 (withQ 0b11 3 .neutral false)
    (fun t => unitQ t = (0b00, 3, .neutral, false)) = true := by decide
/-- Row Q10. -/
theorem test_lut13 : ran .lut13 (withQ 0b11 3 .minus false)
    (fun t => unitQ t = (0b01, 0, .plus, true)) = true := by decide
/-- Row Q16. -/
theorem test_lut14 : ran .lut14 (withQ 0b11 (-3) .neutral false)
    (fun t => unitQ t = (0b10, 0, .minus, true)) = true := by decide
/-- R146. -/
theorem test_lut15 : ran .lut15 (withQ 0b11 3 .neutral false)
    (fun t => unitQ t = (0b11, 3, .neutral, false)) = true := by decide

/-- R170. -/
theorem test_xchg : exec .xchg State.reset = .next { State.reset with scanPend := true } := rfl

/-- The reset state with `SCAN_PEND` = 1 and the fields a row of section 2.3 gives. -/
def withS (mask : BitVec 16) (toggle : BitVec 12) (ems : Interlock) : State :=
  { State.reset with
    scanPend := true, btnMask := mask, toggle := toggle, emsState := ems, emsLast := stableLevel ems }

/-- Row S15. -/
theorem test_scan_two_presses : exec (.scan 0xFFFA) (withS 0x0FFF 0x001 .idle) = .next
    { withS 0x0FFA 0x004 .idle with
      scanPend := false
      out := [.ser (Config.slotText 0 .commandOff ++ [0x0A]), .fired 0 .off,
        .ser (Config.slotText 2 .commandOn ++ [0x0A]), .fired 2 .on]
      ghost := { Ghost.zero with fires := #v[1, 0, 1, 0, 0, 0, 0, 0, 0, 0, 0, 0] } } := rfl

/-- Rows S17 and S9: a suppressed press, and bit 15 read by nothing. -/
theorem test_scan_suppressed_and_bit15 :
    ran (.scan 0xFFDF) (withS 0x0FFF 0x020 .engaged)
      (fun t => (t.out, t.btnMask, t.toggle) = ([.warn], 0x0FDF, 0x020)) = true ∧
    ran (.scan 0x7FFF) (withS 0x0FFF 0 .idle)
      (fun t => (t.out, t.btnMask, t.feed) = ([], 0x0FFF, .nano)) = true := by decide

/-- The reset state with unit E as a row of section 2.4 gives it. -/
def withE (ems : Interlock) (ts now : BitVec 32) (pend : Bool) : State :=
  { State.reset with emsState := ems, emsLast := stableLevel ems, emsLastTs := ts, now := now, emsPend := pend }

/-- Rows E2, E3 and E4. -/
theorem test_emsedge_bound :
    ran (.emsedge false) (withE .idle 0 99 false) (fun t => !t.emsPend) = true ∧
    ran (.emsedge false) (withE .idle 0 100 false) (fun t => t.emsPend) = true ∧
    ran (.emsedge true) (withE .idle 0 150 false) (fun t => !t.emsPend) = true := by decide
/-- Rows E8 and E9. -/
theorem test_emsedge_wrap :
    ran (.emsedge false) (withE .idle 0xFFFFFFF0 0x60 false) (fun t => t.emsPend) = true ∧
    ran (.emsedge false) (withE .idle 0xFFFFFFF0 0x10 false) (fun t => !t.emsPend) = true := by decide

/-- Row E11. -/
theorem test_emschk_engages : ran (.emschk false) (withE .idle 0 250 true)
    (fun t => (t.out, t.emsState, t.emsLast, t.emsLastTs, t.emsPend) =
      ([.ser [0x21, 0x18, 0x0A], .ems true], .engaged, false, 250, false)) = true := by decide
/-- Rows E13 and E14. -/
theorem test_emschk_releases_or_bounces :
    ran (.emschk true) (withE .engaged 250 450 true)
      (fun t => (t.out, t.emsState, t.emsLastTs) = ([.ems false], .idle, 450)) = true ∧
    ran (.emschk false) (withE .engaged 250 450 true)
      (fun t => (t.out, t.emsState, t.emsLastTs) = ([], .engaged, 250)) = true := by decide

/-- Rows A1, A7 and A8. -/
theorem test_axedge_priority :
    ran (.axedge false true true) { State.reset with axis := .z, dispDir := .minus }
      (fun t => (t.axis, t.dispDir) = (.x, .neutral)) = true ∧
    ran (.axedge true false false) { State.reset with axis := .z } (fun t => t.axis = .y) = true ∧
    ran (.axedge false false false) { State.reset with axis := .z } (fun t => t.axis = .x) = true := by decide
/-- Row A4. -/
theorem test_axedge_none : exec (.axedge true true true) { State.reset with axis := .z, dispDir := .minus } =
    .next { State.reset with axis := .z, dispDir := .minus } := rfl

/-- The reset state with a pending tick and the fields a row of section 2.6 gives. -/
def withD (axis : Axis) (dir : Sense) (feed : Feed) (pos : Position) (ems : Interlock) : State :=
  { State.reset with tickPend := true, axis := axis, dir := dir, feed := feed, pos := pos, emsState := ems,
                     emsLast := stableLevel ems, dispDir := .minus }

/-- Row D2v: the line is `G21G91Z-0.010000F2000` and the newline. -/
theorem test_disp_moves : ran .disp { withD .z .minus .micro { x := 0, y := 0, z := 5 } .idle with dispDir := .plus }
    (fun t => (t.pos, t.dispDir, t.tickPend, t.out) = ({ x := 0, y := 0, z := -5 }, .minus, false,
      [.ser [0x47, 0x32, 0x31, 0x47, 0x39, 0x31, 0x5A, 0x2D, 0x30, 0x2E, 0x30, 0x31, 0x30, 0x30, 0x30, 0x30,
        0x46, 0x32, 0x30, 0x30, 0x30, 0x0A]])) = true := by decide
/-- Row D1v. -/
theorem test_disp_dropped : exec .disp (withD .y .plus .full { x := 5, y := 7, z := 9 } .engaged) =
    .next { withD .y .plus .full { x := 5, y := 7, z := 9 } .engaged with tickPend := false } := rfl

/-- Row M1. -/
theorem test_refr : exec .refr State.reset =
    .next { State.reset with out := [.frame .x .nano 0 0 0 .neutral .idle] } := rfl

/-- Rows M3 and M4. -/
theorem test_tadv :
    ran (.tadv 100) { State.reset with now := 150 } (fun t => t.now = 250) = true ∧
    ran (.tadv 0x20) { State.reset with now := 0xFFFFFFF0 } (fun t => t.now = 0x10) = true := by decide

/-- Row M6. -/
theorem test_rst : exec .rst (withD .y .plus .full { x := 5, y := 7, z := 9 } .engaged) = .next State.reset := rfl

/-- R101: a step runs the word that is next in the run, and the run moves on. -/
theorem test_step : step { State.reset with stim := [.word 0x90000064, .word 0x70000000] } =
    .next { State.reset with now := 100, stim := [.word 0x70000000] } := rfl
/-- R103 and R78: a word that spells no operation, and the end of the run. -/
theorem test_step_refuses :
    step { State.reset with stim := [.word 0xFFFFFFFF] } = .refused (.badWord .reservedOp) ∧
    step State.reset = .refused .noStimulus := ⟨rfl, rfl⟩
/-- A row of the table placed as the next operation runs: `DISP` with its flag, `LUT[7]` with its `PREV`. -/
theorem test_withFetchWord :
    (∃ t, step (State.reset.withFetchWord 32 0x70000000) = .next t) ∧
    (∃ t, step (State.reset.withFetchWord 8 7) = .next t) := ⟨⟨_, rfl⟩, ⟨_, rfl⟩⟩

/-! ## Witnesses: states and operands that meet the hypotheses of the obligations -/

theorem witness_EncodeReturnsWhatDecodeRead :
    decode (.word 0x9FFFFFFF) = .ok (.tadv 268435455) ∧ decode (.index 15) = .ok .lut15 := by decide

theorem witness_ReservedWordsAreRefused :
    ({ State.reset with stim := [.word 0x10000004] }.stim = .word 0x10000004 :: [] ∧
      (Stimulus.word 0x10000004).wellFormed = false) ∧
    ({ State.reset with stim := [.word 0x70000000] }.stim = .word 0x70000000 :: [] ∧
      decodeWord 0x70000000 = .ok .disp ∧
      enabled .disp { State.reset with stim := [] } = false) := ⟨⟨rfl, by decide⟩, rfl, by decide, by decide⟩

theorem witness_StepRunsTheDecodedInstruction :
    ({ State.reset with stim := [.word 0x20000000] }.stim = .word 0x20000000 :: [] ∧
      decode (.word 0x20000000) = .ok .xchg) ∧ State.reset.stim = [] := ⟨⟨rfl, by decide⟩, rfl⟩

/-- The three clauses of the sum: +4, -4 and in between, each from a boundary accumulator. -/
theorem witness_AccumulationNeverOverflows :
    (ran (.qedge false false) (withQ 0b01 3 .neutral false) (fun _ => true) = true ∧
      (withQ 0b01 3 .neutral false).acc.toInt + lut (lutIndex 0b01 (sample Config.defaults false false)) = 4) ∧
    (ran (.qedge false false) (withQ 0b10 (-3) .neutral false) (fun _ => true) = true ∧
      (withQ 0b10 (-3) .neutral false).acc.toInt + lut (lutIndex 0b10 (sample Config.defaults false false)) = -4) ∧
    (ran (.qedge true true) (withQ 0b00 3 .neutral false) (fun _ => true) = true ∧
      (withQ 0b00 3 .neutral false).acc.toInt + lut (lutIndex 0b00 (sample Config.defaults true true)) = 3) := by
  decide

theorem witness_UnchangedEntriesWriteNothing :
    (withQ 0b00 3 .neutral false).prev = 0b00 ∧ (withQ 0b01 3 .neutral false).prev = 0b01 ∧
    (withQ 0b10 (-3) .neutral false).prev = 0b10 ∧ (withQ 0b11 (-3) .neutral false).prev = 0b11 ∧
    sample (withQ 0b10 2 .neutral false).params true false = (withQ 0b10 2 .neutral false).prev := by decide

/-- For the statements about the entries: every `PREV`, at both bounds of the accumulator. -/
theorem witness_entries : ∀ prev : BitVec 2, ∀ acc ∈ [-3, 0, 3],
    (withQ prev acc .neutral false).prev = prev ∧
    -3 ≤ (withQ prev acc .neutral false).acc.toInt ∧ (withQ prev acc .neutral false).acc.toInt ≤ 3 := by decide

theorem witness_InvalidEntriesKeepTheAccumulator :
    -3 ≤ (withQ 0b00 (-3) .neutral false).acc.toInt ∧ (withQ 0b00 (-3) .neutral false).acc.toInt ≤ 3 ∧
    (withQ 0b00 (-3) .neutral false).prev = 0b00 ∧ (withQ 0b01 3 .neutral false).prev = 0b01 ∧
    (withQ 0b10 3 .neutral false).prev = 0b10 ∧ (withQ 0b11 3 .neutral false).prev = 0b11 := by decide

theorem witness_PositiveEntriesStepUp :
    (withQ 0b00 3 .neutral false).acc.toInt = 3 ∧ -3 ≤ (withQ 0b00 3 .neutral false).acc.toInt ∧
    (withQ 0b00 3 .neutral false).prev = 0b00 ∧ (withQ 0b01 2 .neutral false).prev = 0b01 ∧
    (withQ 0b10 2 .neutral false).prev = 0b10 ∧ (withQ 0b11 (-3) .neutral false).prev = 0b11 := by decide

theorem witness_NegativeEntriesStepDown :
    (withQ 0b00 (-3) .neutral false).acc.toInt = -3 ∧ (withQ 0b00 (-3) .neutral false).acc.toInt ≤ 3 ∧
    (withQ 0b00 (-3) .neutral false).prev = 0b00 ∧ (withQ 0b01 (-2) .neutral false).prev = 0b01 ∧
    (withQ 0b10 (-2) .neutral false).prev = 0b10 ∧ (withQ 0b11 3 .neutral false).prev = 0b11 := by decide

theorem witness_FullCycleCommitsOneTick : (withQ 0b11 0 .minus true).acc = 0 := by decide

/-- The samples 10, 11, 01 from rest: the sums are 1, 2 and 3, the bound. -/
theorem witness_NoCommitWhileSumsStayInside : ∀ n, n ≤ [0b10#2, 0b11#2, 0b01#2].length →
    -3 ≤ State.reset.acc.toInt + contributions State.reset.prev ([0b10, 0b11, 0b01].take n) ∧
    State.reset.acc.toInt + contributions State.reset.prev ([0b10, 0b11, 0b01].take n) ≤ 3 := by decide

theorem witness_TickUsesTheAxisAndFeedOfItsDispatch :
    (withD .x .plus .nano { x := 0, y := 0, z := 0 } .idle).tickPend = true ∧
    (withD .x .plus .nano { x := 0, y := 0, z := 0 } .idle).emsState = .idle ∧
    (true = false ∨ false = false ∨ true = false) := by decide

theorem witness_PendingTickMeetsTheInterlockOfItsDispatch :
    ({ withD .x .plus .nano { x := 0, y := 0, z := 0 } .engaged with emsPend := true }.tickPend = true ∧
      { withD .x .plus .nano { x := 0, y := 0, z := 0 } .engaged with emsPend := true }.emsState = .engaged ∧
      { withD .x .plus .nano { x := 0, y := 0, z := 0 } .engaged with emsPend := true }.emsLast = false) ∧
    ({ withD .x .plus .nano { x := 0, y := 0, z := 0 } .idle with emsPend := true }.tickPend = true ∧
      { withD .x .plus .nano { x := 0, y := 0, z := 0 } .idle with emsPend := true }.emsState = .idle ∧
      { withD .x .plus .nano { x := 0, y := 0, z := 0 } .idle with emsPend := true }.emsLast = true) := by decide

theorem witness_PressWhileEngagedIsConsumed :
    (withE .engaged 250 450 true).emsState = .engaged ∧ (withE .engaged 250 450 true).emsLast = false ∧
    (withE .engaged 250 450 true).emsPend = true := by decide

/-- Two states that agree on `PREV` and `ACC` and on nothing else of note, both committing. -/
theorem witness_QedgeReadsOnlyUnitQ :
    (withQ 0b01 3 .minus true).prev = (withD .y .plus .full { x := 5, y := 7, z := 9 } .engaged).prev ^^^ 0b01 ∧
    (withQ 0b01 3 .minus true).acc = { State.reset with prev := 0b01, acc := 3, now := 7 }.acc ∧
    (withQ 0b01 3 .minus true).prev = { State.reset with prev := 0b01, acc := 3, now := 7 }.prev ∧
    (∃ s', exec (.qedge false false) (withQ 0b01 3 .minus true) = .next s') ∧
    (∃ t', exec (.qedge false false) { State.reset with prev := 0b01, acc := 3, now := 7 } = .next t') ∧
    ran (.qedge false false) (withQ 0b01 3 .minus true) (fun t => t.ghost.nCommit != 0) = true :=
  ⟨by decide, by decide, by decide, ⟨_, rfl⟩, ⟨_, rfl⟩, by decide⟩

theorem witness_TwoDetentsBeforeDispGiveOneMove :
    State.reset.acc = 0 ∧ State.reset.tickPend = false ∧ State.reset.emsState = .idle := by decide

theorem witness_XchgOnlySetsScanPend : (withS 0 0 .idle).scanPend = true := rfl

theorem witness_ScanHandlesEveryPressEdge :
    State.reset.scanPend = false ∧ (withS 0x0FFF 0x001 .idle).scanPend = true ∧
    (withS 0x0FFF 0x001 .idle).emsState ≠ .engaged ∧
    (withS 0x0FFF 0x001 .engaged).scanPend = true ∧ (withS 0x0FFF 0x001 .engaged).emsState = .engaged := by decide

theorem witness_ScanCountsItsEvents :
    (∃ t, exec (.scan 0xF000) (withS 0x0FFF 0 .idle) = .next t) ∧ (withS 0x0FFF 0 .idle).emsState = .idle ∧
    (∃ t, exec (.scan 0xF000) (withS 0x0FFF 0 .engaged) = .next t) ∧
    (withS 0x0FFF 0 .engaged).emsState = .engaged := ⟨⟨_, rfl⟩, rfl, ⟨_, rfl⟩, rfl⟩

/-- Row S12 for slot 5, held, and the same snapshot again. -/
theorem witness_HeldButtonDoesNothing :
    (∃ t, exec (.scan 0xFFDF) (withS 0x0FDF 0x020 .idle) = .next t) ∧
    (0xFFDF#16).getLsbD 5 = false ∧ (withS 0x0FDF 0x020 .idle).btnMask.getLsbD 5 = false :=
  ⟨⟨_, rfl⟩, by decide, by decide⟩

/-- Slot 11 agrees in two states and snapshots that differ in the other slots. -/
theorem witness_SlotsAreIndependentLanes :
    (withS 0x0FFF 0x800 .idle).btnMask.getLsbD 11 = (withS 0x0800 0x801 .idle).btnMask.getLsbD 11 ∧
    (0xF7FF#16).getLsbD 11 = (0x0000#16).getLsbD 11 ∧
    (withS 0x0FFF 0x800 .idle).toggle[11] = (withS 0x0800 0x801 .idle).toggle[11] ∧
    (withS 0x0FFF 0x800 .idle).emsState = (withS 0x0800 0x801 .idle).emsState ∧
    (∃ s', exec (.scan 0xF7FF) (withS 0x0FFF 0x800 .idle) = .next s') ∧
    (∃ t', exec (.scan 0x0000) (withS 0x0800 0x801 .idle) = .next t') :=
  ⟨by decide, by decide, by decide, rfl, ⟨_, rfl⟩, ⟨_, rfl⟩⟩

theorem witness_TwoPressesRestoreTheToggle :
    State.reset.emsState = .idle ∧ State.reset.btnMask.getLsbD 11 = true ∧
    (0xF7FF#16).getLsbD 11 = false ∧ (0xFFFF#16).getLsbD 11 = true := by decide

theorem witness_FeedFollowsThePriority : ∃ t, exec (.scan 0x9FFF) (withS 0x0FFF 0 .engaged) = .next t := ⟨_, rfl⟩

theorem witness_EmschkConfirmsOrDropsTheChange :
    (withE .idle 0 250 false).emsPend = false ∧
    ((withE .idle 0 250 true).emsPend = true ∧ true = (withE .idle 0 250 true).emsLast) ∧
    ((withE .idle 0 250 true).emsPend = true ∧ (withE .idle 0 250 true).emsLast = true) ∧
    ((withE .engaged 250 450 true).emsPend = true ∧ (withE .engaged 250 450 true).emsLast = false) := by decide

/-- An operation that keeps `EMS_STATE`, one that engages, one that releases. -/
theorem witness_OneCancelSequencePerEngagement :
    (StateInv (withE .idle 0 250 true) ∧ StateInv (withE .engaged 250 450 true)) ∧
    ran .refr (withE .idle 0 250 true) (fun t => t.emsState = .idle) = true ∧
    ran (.emschk false) (withE .idle 0 250 true) (fun t => t.emsState = .engaged) = true ∧
    ran (.emschk true) (withE .engaged 250 450 true) (fun t => t.emsState = .idle) = true ∧
    Instr.emschk true ≠ .rst := by decide

/-- Program P3, steps 8 to 14, from an engaged state. -/
theorem witness_NothingIsSentWhileEngaged :
    StateInv (withE .engaged 250 250 false) ∧ (withE .engaged 250 250 false).emsState = .engaged ∧
    (∀ i ∈ Instr.press 0xFFFE ++ Instr.detentPlus ++ [.disp], i ≠ .rst ∧ i ≠ .emschk true) ∧
    (∃ t, execList (Instr.press 0xFFFE ++ Instr.detentPlus ++ [.disp]) (withE .engaged 250 250 false) = .next t) :=
  ⟨by decide, rfl, by decide, ⟨_, rfl⟩⟩

/-- For each of the three starts of the window a run of 99 ms with other operations between, which completes. -/
theorem witness_GuardIntervalIsABlindWindow :
    (∃ t, exec (.emschk false) (withE .idle 0 250 true) = .next t ∧ t.emsLast ≠ (withE .idle 0 250 true).emsLast ∧
      ∃ u, execList [.xchg, .tadv 40, .emsedge true, .scan 0xFFFE, .tadv 59] t = .next u) ∧
    (∃ t, exec .rst (withE .engaged 250 450 true) = .next t ∧
      ∃ u, execList [.tadv 40, .emsedge false, .refr, .tadv 59] t = .next u) ∧
    (∃ u, execList [.tadv 99] (State.resetWith Config.defaults) = .next u) ∧
    runTime [.xchg, .tadv 40, .emsedge true, .scan 0xFFFE, .tadv 59] = 99 ∧
    runTime [.tadv 40, .emsedge false, .refr, .tadv 59] = 99 ∧ runTime [.tadv 99] = 99 ∧ (99#28).toNat < 100 :=
  ⟨⟨_, rfl, by decide, _, rfl⟩, ⟨_, rfl, _, rfl⟩, ⟨_, rfl⟩, by decide, by decide, by decide, by decide⟩

theorem witness_AxedgeAcceptsALowLine :
    (true = false ∨ true = false ∨ false = false) ∧ (false = false ∨ false = false ∨ false = false) := by decide

theorem witness_DispMovesTheSelectedAxis :
    State.reset.tickPend = false ∧
    ((withD .x .plus .nano { x := 0, y := 0, z := 0 } .idle).tickPend = true ∧
      (withD .x .plus .nano { x := 0, y := 0, z := 0 } .idle).emsState = .idle ∧
      (withD .x .plus .nano { x := 0, y := 0, z := 0 } .idle).dir = .plus ∧
      (withD .z .minus .full { x := 0, y := 0, z := 0 } .idle).dir = .minus) ∧
    ((withD .x .plus .nano { x := 0, y := 0, z := 0 } .engaged).tickPend = true ∧
      (withD .x .plus .nano { x := 0, y := 0, z := 0 } .engaged).emsState = .engaged) := by decide

/-- A dropped tick, the axis that is not selected, and the selected one. -/
theorem witness_DispStepIsExactlyOneFeed :
    (∃ t, exec .disp (withD .y .plus .full { x := 5, y := 7, z := 9 } .engaged) = .next t) ∧
    (withD .y .plus .full { x := 5, y := 7, z := 9 } .engaged).emsState = .engaged ∧
    (∃ t, exec .disp (withD .y .plus .full { x := 5, y := 7, z := 9 } .idle) = .next t) ∧
    (withD .y .plus .full { x := 5, y := 7, z := 9 } .idle).emsState = .idle ∧
    Axis.x ≠ (withD .y .plus .full { x := 5, y := 7, z := 9 } .idle).axis ∧
    (withD .y .plus .full { x := 5, y := 7, z := 9 } .idle).dir ≠ .neutral :=
  ⟨⟨_, rfl⟩, rfl, ⟨_, rfl⟩, rfl, by decide, by decide⟩

theorem witness_DispWithoutDirectionHasAFreeSign :
    (withD .x .neutral .nano { x := 0, y := 0, z := 0 } .idle).tickPend = true ∧
    (withD .x .neutral .nano { x := 0, y := 0, z := 0 } .idle).emsState = .idle ∧
    (withD .x .neutral .nano { x := 0, y := 0, z := 0 } .idle).dir = .neutral := by decide

theorem witness_FreeSignIsNeverReadUnderInv :
    StateInv (withD .z .minus .full { x := 0, y := 0, z := 0 } .idle) ∧
    ∃ t, exec .disp (withD .z .minus .full { x := 0, y := 0, z := 0 } .idle) = .next t := ⟨by decide, ⟨_, rfl⟩⟩

theorem witness_RstKeepsTheModelsOwnFields :
    (withE .engaged 250 450 true).params = Config.defaults ∧ (withE .engaged 250 450 true).stim = [] ∧
    (withE .engaged 250 450 true).freeIx = 0 := ⟨rfl, rfl, rfl⟩

theorem witness_AfterResetOnlyInterruptsRun : ∃ t, exec .rst (withE .engaged 250 450 true) = .next t := ⟨_, rfl⟩

theorem witness_EnabledRunsAndDisabledIsRefused :
    (enabled (.scan 0) (withS 0 0 .idle) = true ∧ enabled .lut15 (withQ 0b11 0 .neutral false) = true) ∧
    (enabled (.scan 0) State.reset = false ∧ enabled .lut15 State.reset = false) := by decide

theorem witness_TaskConsumesItsFlag :
    (flagOf (.scan 0) = some .scan ∧ ∃ t, exec (.scan 0) (withS 0 0 .idle) = .next t) ∧
    (flagOf (.emschk true) = some .ems ∧ ∃ t, exec (.emschk true) (withE .idle 0 0 true) = .next t) ∧
    (flagOf .disp = some .tick ∧ ∃ t, exec .disp (withD .x .plus .nano { x := 0, y := 0, z := 0 } .idle) = .next t) :=
  ⟨⟨rfl, _, rfl⟩, ⟨rfl, _, rfl⟩, ⟨rfl, _, rfl⟩⟩

theorem witness_InterruptOperationsOnlySignal :
    (Instr.context (.qedge false false) = .interrupt ∧
      ∃ t, exec (.qedge false false) (withQ 0b01 3 .minus true) = .next t) ∧
    (Instr.context .lut13 = .interrupt ∧ ∃ t, exec .lut13 (withQ 0b11 3 .minus false) = .next t) := by
  exact ⟨⟨rfl, _, rfl⟩, rfl, _, rfl⟩

theorem witness_InterruptsOfDifferentUnitsCommute :
    Instr.context (.qedge false false) = .interrupt ∧ Instr.context (.emsedge false) = .interrupt ∧
    Instr.unitName (.qedge false false) ≠ Instr.unitName (.emsedge false) ∧
    ∃ t, execList [.qedge false false, .emsedge false] { withQ 0b01 3 .minus true with now := 100 } = .next t :=
  ⟨rfl, rfl, by decide, ⟨_, rfl⟩⟩

/-- For each clause an operation that changes the field. -/
theorem witness_EveryFieldHasItsOwner :
    ran (.qedge false false) (withQ 0b01 3 .minus false) (fun t => t.prev != 0b01 && t.acc != 3 && t.tickPend) = true ∧
    ran .disp (withD .x .plus .nano { x := 0, y := 0, z := 0 } .idle)
      (fun t => !t.tickPend && t.dispDir = .plus && t.pos.x = 1 && t.out != []) = true ∧
    ran (.scan 0xBFFE) (withS 0x0FFF 0 .idle)
      (fun t => t.btnMask != 0x0FFF && t.toggle != 0 && t.feed = .full && !t.scanPend) = true ∧
    ran .xchg State.reset (fun t => t.scanPend) = true ∧
    ran (.emschk false) (withE .idle 0 250 true)
      (fun t => t.emsState = .engaged && !t.emsLast && t.emsLastTs = 250 && !t.emsPend) = true ∧
    ran (.emsedge false) (withE .idle 0 100 false) (fun t => t.emsPend) = true ∧
    ran (.axedge true true false) { State.reset with dispDir := .plus }
      (fun t => t.axis = .z && t.dispDir = .neutral) = true ∧
    ran (.tadv 268435455) State.reset (fun t => t.now = 268435455) = true ∧
    ran .refr State.reset (fun t => t.out != []) = true := by decide

theorem witness_OutputTraceOnlyGrows :
    Instr.emschk false ≠ .rst ∧ ∃ t, exec (.emschk false) (withE .idle 0 250 true) = .next t :=
  ⟨by decide, _, rfl⟩

theorem witness_ParametersAreConstant : ∃ t, exec .rst (withE .idle 0 250 true) = .next t := ⟨_, rfl⟩

/-- A step of a good state with something in every part: a pending tick, ENGAGED, a held button, a word that commits. -/
def goodState : State :=
  { withD .y .plus .full { x := 5, y := 7, z := 9 } .engaged with
    prev := 0b01, acc := 3, btnMask := 0x0FFE, ghost := { Ghost.zero with nCommit := 2, nDisp := 1 },
    stim := [.word 0x10000000] }

theorem witness_StepKeepsTheStateInvariants : StateInv goodState ∧ ∃ t, step goodState = .next t :=
  ⟨by decide, _, rfl⟩

theorem witness_StepKeepsTheTickAccounting : TicksAccounted goodState ∧ ∃ t, step goodState = .next t :=
  ⟨by decide, _, rfl⟩

theorem witness_NoTaskIsPermanentlyDisabled : StateInv goodState := by decide

end Sys2Proof.Tests
end

section
/-!
PROOFS. One step of the machine: what the fetch finds on each shape of the run, and what the step does with it
(R9, R101).
-/

namespace Sys2Proof.Machine

theorem fetch_of_stim_nil {s : State} (hs : s.stim = []) : fetch s = none := by
  simp [fetch, hs]

theorem fetch_of_stim_cons {s : State} {x : Stimulus} {rest : List Stimulus} (hs : s.stim = x :: rest) :
    fetch s = some (x, { s with stim := rest }) :=
  fetch_eq_some.mpr ⟨hs, rfl⟩

theorem step_of_fetch_none {s : State} (hf : fetch s = none) : step s = .refused .noStimulus := by
  simp [step, hf]

theorem step_of_fetch_some {s t : State} {x : Stimulus} {i : Instr} (hf : fetch s = some (x, t))
    (hd : decode x = .ok i) : step s = exec i t := by
  simp [step, hf, hd]

/-- Settles O6: the fetch is determined by the run's first item, and the step by what the fetch found. -/
theorem stepRunsTheDecodedInstruction : Obligations.StepRunsTheDecodedInstruction := by
  constructor
  · intro s x rest i hs hd
    exact step_of_fetch_some (fetch_of_stim_cons hs) hd
  · intro s hs
    exact step_of_fetch_none (fetch_of_stim_nil hs)

end Sys2Proof.Machine
end

section
/-!
PROOFS. What one operation can do to the state, said once: the frames of the shared operations that loop or branch,
and the inversion of `exec`. Proofs about every operation go by cases on it.
-/

namespace Sys2Proof.Machine

/-- The loop of `SCAN` over all slots only appends events, flips toggles and counts fires (R176, R177). -/
theorem handlePresses_frame (eng : Bool) (newly : BitVec 16) (s : State) :
    ∃ es toggle fires, handlePresses eng newly Config.slotNumbers s =
      { s with out := s.out ++ es, toggle := toggle, ghost := { s.ghost with fires := fires } } := by
  cases eng with
  | true => exact ⟨_, s.toggle, s.ghost.fires, handlePresses_engaged newly _ s⟩
  | false =>
    obtain ⟨toggle, fires, hrun, -, -⟩ := handlePresses_idle newly slotNumbers_nodup s
    exact ⟨_, toggle, fires, hrun⟩

/-- `SCAN` writes unit S and the output trace, to which it only appends (R172, R173, R178). -/
theorem scanBody_frame (r : BitVec 16) (s : State) :
    ∃ es toggle fires, scanBody r s =
      { s with
        feed := feedDecode s.params r, btnMask := curMask r, out := s.out ++ es, toggle := toggle,
        ghost := { s.ghost with fires := fires } } := by
  obtain ⟨es, toggle, fires, hrun⟩ := handlePresses_frame (s.emsState == .engaged) (pressEdges s.btnMask r)
    (writeFeed (feedDecode s.params r) s)
  exact ⟨es, toggle, fires, by rw [scanBody_eq, hrun]; rfl⟩

/-- What an operation other than `RST` can do to the state `s`, with the guards it does it under. -/
inductive Effect (s : State) : State → Prop where
  /-- Nothing: an unchanged sample (R149), no low axis line (R232), an edge the guard drops (R201). -/
  | keep : Effect s s
  /-- A changed sample whose sum reaches 4 or -4 commits a tick (R148). -/
  | commit (smp : BitVec 2) (step : Int) (dir : Sense) (signed : dir ≠ .neutral)
      (sum : s.acc.toInt + step = 4 * senseInt dir) :
      Effect s { s with
        prev := smp, acc := 0, dir := dir, tickPend := true,
        ghost := { s.ghost with nCommit := s.ghost.nCommit + 1 } }
  /-- A changed sample whose sum stays off 4 and -4 is counted (R147). -/
  | count (smp : BitVec 2) (step : Int) (lo : -1 ≤ step) (hi : step ≤ 1)
      (below : s.acc.toInt + step ≠ 4) (above : s.acc.toInt + step ≠ -4) :
      Effect s { s with prev := smp, acc := BitVec.ofInt 4 (s.acc.toInt + step) }
  /-- `XCHG` (R170). -/
  | wakeScan : Effect s (wake .scan s)
  /-- `SCAN` (R172). -/
  | scan (r : BitVec 16) (es : List Event) (toggle : BitVec 12) (fires : Vector Nat 12) (pend : s.scanPend = true) :
      Effect s { clearPend .scan s with
        feed := feedDecode s.params r, btnMask := curMask r, out := s.out ++ es, toggle := toggle,
        ghost := { s.ghost with fires := fires } }
  /-- `EMSEDGE` past the guard (R201). -/
  | wakeEms (lvl : Bool) (changed : lvl ≠ s.emsLast) (guard : guardPassed s.now s.emsLastTs = true) :
      Effect s (wakeInterlock s)
  /-- `EMSCHK` of a bounce (R202). -/
  | dropEdge (pend : s.emsPend = true) : Effect s (clearPend .ems s)
  /-- `EMSCHK` of a confirmed transition (R203, R204). -/
  | accept (lvl : Bool) (pend : s.emsPend = true) (changed : lvl ≠ s.emsLast) :
      Effect s (acceptTransition lvl (clearPend .ems s))
  /-- `AXEDGE` with a low line (R230). -/
  | select (a : Axis) : Effect s (acceptAxis a s)
  /-- `DISP` while ENGAGED drops the tick (R235). -/
  | dropTick (pend : s.tickPend = true) (engaged : s.emsState ≠ .idle) : Effect s (clearPend .tick s)
  /-- `DISP` while IDLE processes the tick (R234). -/
  | dispatch (pend : s.tickPend = true) (idle : s.emsState = .idle) : Effect s (dispatchTick (clearPend .tick s))
  /-- `REFR` (R240). -/
  | refresh : Effect s (emit (.frame s.axis s.feed s.pos.x s.pos.y s.pos.z s.dispDir s.emsState) s)
  /-- `TADV` (R269). -/
  | advance (d : BitVec 28) : Effect s (advanceTime d s)

theorem effect_accumulate (smp : BitVec 2) {step : Int} (lo : -1 ≤ step) (hi : step ≤ 1) (s : State) :
    Effect s (accumulate smp step s) := by
  obtain ⟨sum, h⟩ | ⟨sum, h⟩ | ⟨below, above, h⟩ := accumulate_cases smp step s
  · rw [h]; exact .commit smp step .plus (by decide) sum
  · rw [h]; exact .commit smp step .minus (by decide) sum
  · rw [h]; exact .count smp step lo hi below above

theorem effect_takeSample (smp : BitVec 2) (s : State) : Effect s (takeSample smp s) := by
  obtain ⟨-, h⟩ | ⟨-, h⟩ := takeSample_cases smp s
  · rw [h]; exact .keep
  · obtain ⟨lo, hi⟩ := lut_range (lutIndex s.prev smp)
    rw [h]; exact effect_accumulate smp lo hi s

theorem effect_of_decodeEntry {frm smp : BitVec 2} {step : Int} {s t : State}
    (h : decodeEntry frm smp step s = .next t) (lo : -1 ≤ step) (hi : step ≤ 1) : Effect s t := by
  obtain ⟨-, rfl⟩ := decodeEntry_eq_next.mp h
  split
  · exact .keep
  · exact effect_accumulate smp lo hi s

theorem effect_of_execScan {r : BitVec 16} {s t : State} (h : execScan r s = .next t) : Effect s t := by
  obtain ⟨pend, rfl⟩ := execScan_eq_next.mp h
  obtain ⟨es, toggle, fires, hbody⟩ := scanBody_frame r (clearPend .scan s)
  rw [hbody]; exact .scan r es toggle fires pend

theorem effect_of_execEmsedge {lvl : Bool} {s t : State} (h : execEmsedge lvl s = .next t) : Effect s t := by
  unfold execEmsedge at h
  cases h
  split
  next due => exact .wakeEms lvl due.1 due.2
  next => exact .keep

theorem effect_of_execEmschk {lvl : Bool} {s t : State} (h : execEmschk lvl s = .next t) : Effect s t := by
  obtain ⟨pend, rfl⟩ := execEmschk_eq_next.mp h
  split
  next changed => exact .accept lvl pend changed
  next => exact .dropEdge pend

theorem effect_of_execAxedge {xn yn zn : Bool} {s t : State} (h : execAxedge xn yn zn s = .next t) : Effect s t := by
  unfold execAxedge at h
  split at h
  · cases h; exact .select _
  · cases h; exact .keep

theorem effect_of_execDisp {s t : State} (h : execDisp s = .next t) : Effect s t := by
  obtain ⟨pend, rfl⟩ := execDisp_eq_next.mp h
  split
  next idle => exact .dispatch pend idle
  next engaged => exact .dropTick pend engaged

/-- Everything an operation can do: `RST` resets, and every other has one of the effects. -/
theorem exec_next_cases {i : Instr} {s t : State} (h : exec i s = .next t) :
    (i = .rst ∧ t = resetAll s) ∨ Effect s t := by
  cases i with
  | rst => cases h; exact .inl ⟨rfl, rfl⟩
  | qedge a b => cases h; exact .inr (effect_takeSample _ s)
  | xchg => cases h; exact .inr .wakeScan
  | scan r => exact .inr (effect_of_execScan h)
  | emsedge lvl => exact .inr (effect_of_execEmsedge h)
  | emschk lvl => exact .inr (effect_of_execEmschk h)
  | axedge xn yn zn => exact .inr (effect_of_execAxedge h)
  | disp => exact .inr (effect_of_execDisp h)
  | refr => cases h; exact .inr .refresh
  | tadv d => cases h; exact .inr (.advance d)
  | lut0 | lut1 | lut2 | lut3 | lut4 | lut5 | lut6 | lut7
  | lut8 | lut9 | lut10 | lut11 | lut12 | lut13 | lut14 | lut15 =>
    exact .inr (effect_of_decodeEntry h (by decide) (by decide))

end Sys2Proof.Machine
end

section
/-!
PROOFS. The state elements and their invariants (10_state.md R22, R37, R39, R42): the reset state meets the invariants
and every step keeps them; the output trace grows, the parameters stay, and the free SIGN character is read only
outside the invariants.
-/

namespace Sys2Proof.Machine

/-! ## The invariants of R42 -/

/-- The levels stored in `BTN_MASK` leave bits 15:12 at 0 (R25, R42 c). -/
theorem extractLsb'_setWidth_high (m : BitVec 12) : (m.setWidth 16).extractLsb' 12 4 = 0#4 := by
  apply BitVec.eq_of_getLsbD_eq
  intro i hi
  simp [BitVec.getLsbD_extractLsb', BitVec.getLsbD_setWidth]

theorem extractLsb'_curMask_high (r : BitVec 16) : (curMask r).extractLsb' 12 4 = 0#4 :=
  extractLsb'_setWidth_high (r.extractLsb' 0 12)

/-- `ACC` = 0, as a reset and a commit leave it, is in the range of R42 (a). -/
theorem acc_zero_range : -3 ≤ (0 : BitVec 4).toInt ∧ (0 : BitVec 4).toInt ≤ 3 := by decide

theorem stateInv_resetWith (p : Params) : StateInv (State.resetWith p) := by
  refine ⟨acc_zero_range, ?_, extractLsb'_setWidth_high p.btnMaskReset, ?_⟩
  · intro pend
    cases pend
  · exact beq_iff_eq

theorem ticksAccounted_resetWith (p : Params) : TicksAccounted (State.resetWith p) :=
  Nat.le_refl 0

theorem stateInv_resetAll (s : State) : StateInv (resetAll s) := by
  rw [resetAll_eq]
  exact stateInv_resetWith s.params

/-- A confirmed transition writes the level and the interlock state together (R42 d). -/
theorem stateInv_acceptTransition (lvl : Bool) {s : State} (inv : StateInv s) : StateInv (acceptTransition lvl s) := by
  obtain ⟨acc, tick, mask, -⟩ := inv
  cases lvl with
  | false => rw [acceptTransition_low]; exact ⟨acc, tick, mask, by simp⟩
  | true => rw [acceptTransition_high]; exact ⟨acc, tick, mask, by simp⟩

theorem Effect.stateInv {s t : State} (e : Effect s t) (inv : StateInv s) : StateInv t := by
  have ⟨acc, tick, mask, level⟩ := inv
  cases e with
  | commit smp step dir signed => exact ⟨acc_zero_range, fun _ => signed, mask, level⟩
  | count smp step lo hi below above =>
    have stored : (BitVec.ofInt 4 (s.acc.toInt + step)).toInt = s.acc.toInt + step :=
      toInt_ofInt_acc (by omega) (by omega)
    exact ⟨by rw [stored]; omega, tick, mask, level⟩
  | scan r => exact ⟨acc, tick, extractLsb'_curMask_high r, level⟩
  | accept lvl => exact stateInv_acceptTransition lvl inv
  | dropTick | dispatch => exact ⟨acc, (nomatch ·), mask, level⟩
  | keep | wakeScan | wakeEms | dropEdge | select | refresh | advance => exact inv

theorem stateInv_exec {i : Instr} {s t : State} (inv : StateInv s) (h : exec i s = .next t) : StateInv t := by
  obtain ⟨-, rfl⟩ | e := exec_next_cases h
  · exact stateInv_resetAll s
  · exact e.stateInv inv

/-- Settles O53: the step runs an operation on the state without its next stimulus, which no invariant reads, and every
operation keeps the invariants. -/
theorem stepKeepsTheStateInvariants : Obligations.StepKeepsTheStateInvariants := by
  intro s t inv h
  obtain ⟨x, rest, i, -, -, hexec⟩ := step_eq_next.mp h
  have invRest : StateInv { s with stim := rest } := inv
  exact stateInv_exec invRest hexec

/-- Settles O54: the default reset state is the one of the default parameters. -/
theorem resetMeetsTheInvariants : Obligations.ResetMeetsTheInvariants :=
  ⟨fun p => ⟨stateInv_resetWith p, ticksAccounted_resetWith p⟩,
    stateInv_resetWith Config.defaults, ticksAccounted_resetWith Config.defaults⟩

/-! ## The free SIGN character (R22, log entry 5) -/

theorem nextFreeIx_of_ne_neutral {dir : Sense} (h : dir ≠ .neutral) (ix : Nat) : nextFreeIx dir ix = ix :=
  if_neg h

theorem signChar_neutral (ix : Nat) : signChar ix .neutral = 0x2B ∨ signChar ix .neutral = 0x2D := by
  unfold signChar
  cases Config.freeSign ix
  · exact .inr rfl
  · exact .inl rfl

theorem movePosition_zero (a : Axis) (p : Position) : movePosition a 0 p = p := by
  cases a <;> simp [movePosition]

/-- A tick without a direction moves nothing and reads the free SIGN character once. -/
theorem dispatchTick_of_neutral {s : State} (h : s.dir = .neutral) :
    dispatchTick s = { s with
      dispDir := .neutral, freeIx := s.freeIx + 1,
      out := s.out ++ [.ser (moveLine s.params s.axis (signChar s.freeIx .neutral) s.feed)],
      ghost := { s.ghost with nDisp := s.ghost.nDisp + 1 } } := by
  simp [dispatchTick, h, emit, senseInt, movePosition_zero, nextFreeIx]

theorem Effect.freeIx_eq {s t : State} (e : Effect s t) (inv : StateInv s) : t.freeIx = s.freeIx := by
  obtain ⟨-, tick, -, -⟩ := inv
  cases e with
  | dispatch pend => exact nextFreeIx_of_ne_neutral (tick pend) s.freeIx
  | accept lvl => cases lvl <;> rfl
  | keep | commit | count | wakeScan | scan | wakeEms | dropEdge | select | dropTick | refresh | advance => rfl

/-- Settles O40: only `DISP` of a pending tick can read the character, and by R42 (b) that tick has a direction. -/
theorem freeSignIsNeverReadUnderInv : Obligations.FreeSignIsNeverReadUnderInv := by
  intro i s t inv h
  obtain ⟨-, rfl⟩ | e := exec_next_cases h
  · rfl
  · exact e.freeIx_eq inv

/-- Settles O39: the sign is the free value at the counter, one of the two characters. -/
theorem dispWithoutDirectionHasAFreeSign : Obligations.DispWithoutDirectionHasAFreeSign := by
  intro s pend idle neutral
  refine ⟨signChar s.freeIx .neutral, signChar_neutral s.freeIx, ?_⟩
  have hdir : (clearPend .tick s).dir = .neutral := neutral
  refine execDisp_eq_next.mpr ⟨pend, ?_⟩
  rw [if_pos idle, dispatchTick_of_neutral hdir]
  rfl

/-! ## The output trace and the parameters -/

theorem acceptTransition_out (lvl : Bool) (s : State) : ∃ es, (acceptTransition lvl s).out = s.out ++ es := by
  cases lvl with
  | false => rw [acceptTransition_low]; exact ⟨_, rfl⟩
  | true => rw [acceptTransition_high]; exact ⟨_, rfl⟩

theorem Effect.out_grows {s t : State} (e : Effect s t) : ∃ es, t.out = s.out ++ es := by
  cases e with
  | scan r es => exact ⟨es, rfl⟩
  | accept lvl => exact acceptTransition_out lvl (clearPend .ems s)
  | dispatch | refresh => exact ⟨[_], rfl⟩
  | keep | commit | count | wakeScan | wakeEms | dropEdge | select | dropTick | advance =>
    exact ⟨[], (List.append_nil s.out).symm⟩

/-- Settles O51, by the effects an operation other than `RST` can have. -/
theorem outputTraceOnlyGrows : Obligations.OutputTraceOnlyGrows := by
  intro i s t hi h
  obtain ⟨rfl, -⟩ | e := exec_next_cases h
  · exact absurd rfl hi
  · exact e.out_grows

theorem Effect.params_stim {s t : State} (e : Effect s t) : t.params = s.params ∧ t.stim = s.stim := by
  cases e with
  | accept lvl => cases lvl <;> exact ⟨rfl, rfl⟩
  | keep | commit | count | wakeScan | scan | wakeEms | dropEdge | select | dropTick | dispatch | refresh | advance =>
    exact ⟨rfl, rfl⟩

/-- Settles O52: `RST` keeps the parameters and the rest of the run too. -/
theorem parametersAreConstant : Obligations.ParametersAreConstant := by
  intro i s t h
  obtain ⟨-, rfl⟩ | e := exec_next_cases h
  · exact ⟨rfl, rfl⟩
  · exact e.params_stim

end Sys2Proof.Machine
end

section
/-!
PROOFS. Who writes what (20_memory.md R68, R69, R74, R78): the inversion of `exec` that keeps the operation beside the
fields it may write, and from it the owners of each field and the reach of an interrupt; that a task operation consumes
its flag; and a run after which every task operation is enabled.
-/

namespace Sys2Proof.Machine

/-! ## What each operation may write -/

/-- What the operation `i` other than `RST` may write to the state `s`: the fields are fixed, the values are not. -/
inductive Writes (s : State) : Instr → State → Prop where
  /-- Nothing: an unchanged sample (R149), no low axis line (R232), an edge the guard drops (R201). -/
  | keep (i : Instr) : Writes s i s
  /-- A changed sample that does not commit (R147). -/
  | count {i : Instr} (unit : i.unitName = .q) (smp : BitVec 2) (acc : BitVec 4) :
      Writes s i { s with prev := smp, acc := acc }
  /-- A changed sample that commits a tick (R148). -/
  | commit {i : Instr} (unit : i.unitName = .q) (smp : BitVec 2) (dir : Sense) (ghost : Ghost) :
      Writes s i (wake .tick { s with prev := smp, acc := 0, dir := dir, ghost := ghost })
  /-- `XCHG` (R170). -/
  | xchg : Writes s .xchg (wake .scan s)
  /-- `SCAN` (R172). -/
  | scan (r : BitVec 16) (feed : Feed) (mask : BitVec 16) (toggle : BitVec 12) (out : List Event) (ghost : Ghost) :
      Writes s (.scan r)
        { clearPend .scan s with feed := feed, btnMask := mask, toggle := toggle, out := out, ghost := ghost }
  /-- `EMSEDGE` past the guard (R201). -/
  | emsedge (lvl : Bool) (ghost : Ghost) : Writes s (.emsedge lvl) (wake .ems { s with ghost := ghost })
  /-- `EMSCHK` (R202 to R204). -/
  | emschk (lvl : Bool) (state : Interlock) (last : Bool) (ts : BitVec 32) (out : List Event) :
      Writes s (.emschk lvl)
        { clearPend .ems s with emsState := state, emsLast := last, emsLastTs := ts, out := out }
  /-- `AXEDGE` with a low line (R230). -/
  | axedge (xn yn zn : Bool) (a : Axis) : Writes s (.axedge xn yn zn) (acceptAxis a s)
  /-- `DISP` (R234, R235). -/
  | disp (pos : Position) (dispDir : Sense) (out : List Event) (freeIx : Nat) (ghost : Ghost) :
      Writes s .disp
        { clearPend .tick s with pos := pos, dispDir := dispDir, out := out, freeIx := freeIx, ghost := ghost }
  /-- `REFR` (R240). -/
  | refr (out : List Event) : Writes s .refr { s with out := out }
  /-- `TADV` (R269). -/
  | tadv (d : BitVec 28) : Writes s (.tadv d) (advanceTime d s)

theorem writes_accumulate {i : Instr} (unit : i.unitName = .q) (smp : BitVec 2) (step : Int) (s : State) :
    Writes s i (accumulate smp step s) := by
  obtain ⟨-, h⟩ | ⟨-, h⟩ | ⟨-, -, h⟩ := accumulate_cases smp step s
  · rw [h]; exact .commit unit smp .plus _
  · rw [h]; exact .commit unit smp .minus _
  · rw [h]; exact .count unit smp _

theorem writes_takeSample {i : Instr} (unit : i.unitName = .q) (smp : BitVec 2) (s : State) :
    Writes s i (takeSample smp s) := by
  obtain ⟨-, h⟩ | ⟨-, h⟩ := takeSample_cases smp s
  · rw [h]; exact .keep i
  · rw [h]; exact writes_accumulate unit smp _ s

theorem writes_of_decodeEntry {i : Instr} (unit : i.unitName = .q) {frm smp : BitVec 2} {step : Int} {s t : State}
    (h : decodeEntry frm smp step s = .next t) : Writes s i t := by
  obtain ⟨-, rfl⟩ := decodeEntry_eq_next.mp h
  split
  · exact .keep i
  · exact writes_accumulate unit smp step s

theorem writes_of_execScan {r : BitVec 16} {s t : State} (h : execScan r s = .next t) : Writes s (.scan r) t := by
  obtain ⟨-, rfl⟩ := execScan_eq_next.mp h
  obtain ⟨es, toggle, fires, hbody⟩ := scanBody_frame r (clearPend .scan s)
  rw [hbody]; exact .scan r _ _ toggle _ _

theorem writes_of_execEmsedge {lvl : Bool} {s t : State} (h : execEmsedge lvl s = .next t) :
    Writes s (.emsedge lvl) t := by
  unfold execEmsedge at h
  cases h
  split
  · exact .emsedge lvl _
  · exact .keep _

theorem writes_of_execEmschk {lvl : Bool} {s t : State} (h : execEmschk lvl s = .next t) :
    Writes s (.emschk lvl) t := by
  obtain ⟨-, rfl⟩ := execEmschk_eq_next.mp h
  split
  · cases lvl with
    | false => rw [acceptTransition_low]; exact .emschk _ _ _ _ _
    | true => rw [acceptTransition_high]; exact .emschk _ _ _ _ _
  · exact .emschk lvl s.emsState s.emsLast s.emsLastTs s.out

theorem writes_of_execAxedge {xn yn zn : Bool} {s t : State} (h : execAxedge xn yn zn s = .next t) :
    Writes s (.axedge xn yn zn) t := by
  unfold execAxedge at h
  split at h
  · cases h; exact .axedge xn yn zn _
  · cases h; exact .keep _

theorem writes_of_execDisp {s t : State} (h : execDisp s = .next t) : Writes s .disp t := by
  obtain ⟨-, rfl⟩ := execDisp_eq_next.mp h
  split
  · exact .disp _ _ _ _ _
  · exact .disp s.pos s.dispDir s.out s.freeIx s.ghost

/-- An operation other than `RST` writes its own fields only. -/
theorem writes_of_exec {i : Instr} {s t : State} (h : exec i s = .next t) (hi : i ≠ .rst) : Writes s i t := by
  cases i with
  | rst => exact absurd rfl hi
  | qedge a b => cases h; exact writes_takeSample rfl _ s
  | xchg => cases h; exact .xchg
  | scan r => exact writes_of_execScan h
  | emsedge lvl => exact writes_of_execEmsedge h
  | emschk lvl => exact writes_of_execEmschk h
  | axedge xn yn zn => exact writes_of_execAxedge h
  | disp => exact writes_of_execDisp h
  | refr => cases h; exact .refr _
  | tadv d => cases h; exact .tadv d
  | lut0 | lut1 | lut2 | lut3 | lut4 | lut5 | lut6 | lut7
  | lut8 | lut9 | lut10 | lut11 | lut12 | lut13 | lut14 | lut15 => exact writes_of_decodeEntry rfl h

/-- Settles O50: in each case of `Writes` the fields of the other owners are those of the old state, and a flag that
changes does so in the direction its writer gives it. -/
theorem everyFieldHasItsOwner : Obligations.EveryFieldHasItsOwner := by
  intro i s t h hi
  cases writes_of_exec h hi with
  | count unit | commit unit => simp [unit]
  | keep | xchg | scan | emsedge | emschk | axedge | disp | refr | tadv => simp

/-! ## The pending flags -/

theorem pending_wake_eq (f g : PendFlag) (s : State) : pending g (wake f s) = (decide (g = f) || pending g s) := by
  cases f <;> cases g <;> simp

theorem pending_congr {s u : State} (tick : u.tickPend = s.tickPend) (scan : u.scanPend = s.scanPend)
    (ems : u.emsPend = s.emsPend) (g : PendFlag) : pending g u = pending g s := by
  cases g with
  | tick => exact tick
  | scan => exact scan
  | ems => exact ems

/-- A wake beside writes that touch no flag signals one task, and leaves the other flags as they were (R69, R270). -/
theorem wake_signals_one (f : PendFlag) {s u : State} (tick : u.tickPend = s.tickPend)
    (scan : u.scanPend = s.scanPend) (ems : u.emsPend = s.emsPend) :
    ∃ f', pending f' (wake f u) = true ∧ ∀ g, g ≠ f' → pending g (wake f u) = pending g s := by
  refine ⟨f, pending_wake f u, fun g hg => ?_⟩
  rw [pending_wake_eq, pending_congr tick scan ems g]
  simp [hg]

/-- Settles O48: of what `Writes` allows, an interrupt operation either writes the encoder's or the axis selector's
fields, or wakes one flag. -/
theorem interruptOperationsOnlySignal : Obligations.InterruptOperationsOnlySignal := by
  intro i s t hctx h
  have hi : i ≠ .rst := by rintro rfl; cases hctx
  cases writes_of_exec h hi with
  | keep | count | axedge => exact ⟨rfl, rfl, rfl, rfl, rfl, rfl, rfl, rfl, rfl, .inl rfl⟩
  | commit => exact ⟨rfl, rfl, rfl, rfl, rfl, rfl, rfl, rfl, rfl, .inr (wake_signals_one .tick rfl rfl rfl)⟩
  | xchg => exact ⟨rfl, rfl, rfl, rfl, rfl, rfl, rfl, rfl, rfl, .inr (wake_signals_one .scan rfl rfl rfl)⟩
  | emsedge => exact ⟨rfl, rfl, rfl, rfl, rfl, rfl, rfl, rfl, rfl, .inr (wake_signals_one .ems rfl rfl rfl)⟩
  | scan | emschk | disp | refr | tadv => cases hctx

@[simp] theorem acceptTransition_emsPend (lvl : Bool) (s : State) : (acceptTransition lvl s).emsPend = s.emsPend := by
  cases lvl <;> rfl

@[simp] theorem dispatchTick_tickPend (s : State) : (dispatchTick s).tickPend = s.tickPend := rfl

@[simp] theorem scanBody_scanPend (r : BitVec 16) (s : State) : (scanBody r s).scanPend = s.scanPend := by
  obtain ⟨es, toggle, fires, hbody⟩ := scanBody_frame r s
  rw [hbody]

/-- Settles O47: each task operation is refused unless its flag is set, and clears it before its body, which leaves
that flag alone. -/
theorem taskConsumesItsFlag : Obligations.TaskConsumesItsFlag := by
  intro i f s t hf h
  cases i with
  | scan r =>
    cases hf
    obtain ⟨pend, rfl⟩ := execScan_eq_next.mp h
    exact ⟨pend, by simp⟩
  | emschk lvl =>
    cases hf
    obtain ⟨pend, rfl⟩ := execEmschk_eq_next.mp h
    exact ⟨pend, by split <;> simp⟩
  | disp =>
    cases hf
    obtain ⟨pend, rfl⟩ := execDisp_eq_next.mp h
    exact ⟨pend, by split <;> simp⟩
  | rst | qedge | xchg | emsedge | axedge | refr | tadv
  | lut0 | lut1 | lut2 | lut3 | lut4 | lut5 | lut6 | lut7
  | lut8 | lut9 | lut10 | lut11 | lut12 | lut13 | lut14 | lut15 => cases hf

/-! ## A run that enables every task operation (R78) -/

theorem positiveNext_ne (p : BitVec 2) : positiveNext p ≠ p := by revert p; decide

theorem lut_positiveNext (p : BitVec 2) : lut (lutIndex p (positiveNext p)) = 1 := by revert p; decide

theorem exec_qedgeOf (smp : BitVec 2) (s : State) : exec (qedgeOf s.params smp) s = .next (takeSample smp s) := by
  obtain ⟨a, b, hop, rfl⟩ := sample_qedgeOf s.params smp
  rw [hop]; rfl

theorem qedgeOf_ne_rst (p : Params) (smp : BitVec 2) : qedgeOf p smp ≠ .rst := by
  obtain ⟨a, b, hop, -⟩ := sample_qedgeOf p smp
  rw [hop]; exact Instr.noConfusion

/-- The next sample of the positive cycle adds 1 (R93). -/
theorem takeSample_positiveNext (s : State) :
    takeSample (positiveNext s.prev) s = accumulate (positiveNext s.prev) 1 s := by
  obtain ⟨same, -⟩ | ⟨-, h⟩ := takeSample_cases (positiveNext s.prev) s
  · exact absurd same (positiveNext_ne s.prev)
  · rw [h, lut_positiveNext]

/-- Turning the encoder one step in the positive direction adds 1 to the accumulator. -/
theorem exec_positiveNext (s : State) :
    exec (qedgeOf s.params (positiveNext s.prev)) s = .next (accumulate (positiveNext s.prev) 1 s) := by
  rw [exec_qedgeOf, takeSample_positiveNext]

theorem execList_cons_of_next {i : Instr} {s t : State} (l : List Instr) (h : exec i s = .next t) :
    execList (i :: l) s = execList l t := by
  simp only [execList, h]

/-- From an accumulator `n` below 3, turning the encoder `n + 1` steps in the positive direction commits a tick. -/
theorem exists_run_to_tick (n : Nat) {s : State} (lo : -3 ≤ s.acc.toInt) (hn : s.acc.toInt + n = 3) :
    ∃ l t, .rst ∉ l ∧ execList l s = .next t ∧ t.tickPend = true := by
  induction n generalizing s with
  | zero =>
    obtain ⟨-, h⟩ | ⟨sum, -⟩ | ⟨off, -, -⟩ := accumulate_cases (positiveNext s.prev) 1 s
    · refine ⟨[qedgeOf s.params (positiveNext s.prev)], _, ?_, execList_cons_of_next [] (exec_positiveNext s), ?_⟩
      · simpa using (qedgeOf_ne_rst s.params (positiveNext s.prev)).symm
      · rw [h]
    · omega
    · omega
  | succ n ih =>
    obtain ⟨sum, -⟩ | ⟨sum, -⟩ | ⟨-, -, h⟩ := accumulate_cases (positiveNext s.prev) 1 s
    · omega
    · omega
    · have stored : (accumulate (positiveNext s.prev) 1 s).acc.toInt = s.acc.toInt + 1 := by
        rw [h]; exact toInt_ofInt_acc (by omega) (by omega)
      obtain ⟨l, t, hl, hrun, tick⟩ := ih (s := accumulate (positiveNext s.prev) 1 s) (by omega) (by omega)
      refine ⟨qedgeOf s.params (positiveNext s.prev) :: l, t, ?_, ?_, tick⟩
      · simpa [hl] using (qedgeOf_ne_rst s.params (positiveNext s.prev)).symm
      · rw [execList_cons_of_next l (exec_positiveNext s), hrun]

/-- The guard of R201 is met now or 100 ms later. -/
theorem exists_delay_past_guard (now ts : BitVec 32) :
    ∃ d : BitVec 28, guardPassed (now + d.setWidth 32) ts = true := by
  by_cases h : guardPassed now ts = true
  · exact ⟨0, by simpa using h⟩
  · refine ⟨100, ?_⟩
    rw [guardPassed_eq_true] at h ⊢
    have sum : (now + BitVec.setWidth 32 (100 : BitVec 28)).toNat = (now.toNat + 100) % 4294967296 := by
      rw [BitVec.toNat_add]; rfl
    have := now.isLt
    have := ts.isLt
    omega

/-- An edge of the EMS line past the guard wakes the interlock task (R200, R201). -/
theorem exec_emsedge_of_guard {s : State} (guard : guardPassed s.now s.emsLastTs = true) :
    exec (.emsedge (!s.emsLast)) s = .next (wakeInterlock s) := by
  have changed : (!s.emsLast) ≠ s.emsLast := Bool.not_ne_self s.emsLast
  exact congrArg Host.Outcome.next (if_pos ⟨changed, guard⟩)

/-- Once a tick is pending, `XCHG`, the time the guard asks for and an edge of the EMS line set the other two flags. -/
theorem exists_run_to_other_flags {s : State} (tick : s.tickPend = true) :
    ∃ l t, .rst ∉ l ∧ execList l s = .next t ∧ t.tickPend = true ∧ t.scanPend = true ∧ t.emsPend = true := by
  obtain ⟨d, guard⟩ := exists_delay_past_guard s.now s.emsLastTs
  refine ⟨[.xchg, .tadv d, .emsedge (!s.emsLast)], wakeInterlock (advanceTime d (wake .scan s)),
    by simp, ?_, tick, rfl, rfl⟩
  exact execList_cons_of_next [] (exec_emsedge_of_guard (s := advanceTime d (wake .scan s)) guard)

/-- Settles O56: turn the encoder until a tick commits, then wake the scanner and the interlock task. -/
theorem noTaskIsPermanentlyDisabled : Obligations.NoTaskIsPermanentlyDisabled := by
  rintro s ⟨⟨lo, hi⟩, -⟩
  obtain ⟨l, u, hl, hrun, tick⟩ := exists_run_to_tick (3 - s.acc.toInt).toNat lo (by omega)
  obtain ⟨m, t, hm, hrun', flags⟩ := exists_run_to_other_flags tick
  refine ⟨l ++ m, t, by simp [hl, hm], ?_, flags⟩
  rw [execList_append l m s u hrun, hrun']

end Sys2Proof.Machine
end

section
/-!
PROOFS. Stimulus words (30_encoding.md R101 to R104): the decoder and the encoder are inverse to each other, and the
words the decoder accepts are exactly those of the opcode table's rows.
-/

namespace Sys2Proof

/-! ## The fields of a word -/

/-- The number of payload bits that the operation code `op` uses (R102); a reserved code uses none. -/
def payloadBits (op : Nat) : Nat :=
  match op with
  | 1 => 2
  | 3 => 16
  | 4 | 5 => 1
  | 6 => 3
  | 9 => 28
  | _ => 0

@[simp] theorem getLsbD_levelBit (b : Bool) (i : Nat) : (levelBit b).getLsbD i = (decide (i = 0) && b) := by
  rw [levelBit, BitVec.getLsbD_setWidth, BitVec.getLsbD_ofBool]
  cases i <;> simp

@[simp] theorem getElem_levelBit (b : Bool) (i : Nat) (h : i < 28) : (levelBit b)[i] = (decide (i = 0) && b) := by
  rw [← BitVec.getLsbD_eq_getElem, getLsbD_levelBit]

/-- A word is built from its operation code and its payload. -/
theorem makeWord_of_fields {op : BitVec 4} {w : BitVec 32} {payload : BitVec 28}
    (hop : (opField w).toNat = op.toNat) (hpayload : w.extractLsb' 0 28 = payload) :
    makeWord op payload = .word w := by
  rw [makeWord_eq, ← BitVec.eq_of_toNat_eq hop, ← hpayload, wordOf_fields]

/-- A payload whose bits from `lo` up are 0 is determined by the bits below `lo`. -/
theorem payload_eq_of_zeroFrom {lo : Nat} {w : BitVec 32} {payload : BitVec 28}
    (zero : w.extractLsb' lo (28 - lo) = 0#(28 - lo)) (low : ∀ i < lo, payload.getLsbD i = w.getLsbD i)
    (high : ∀ i, lo ≤ i → payload.getLsbD i = false) : w.extractLsb' 0 28 = payload := by
  apply BitVec.eq_of_getLsbD_eq
  intro i hi
  rw [BitVec.getLsbD_extractLsb', Nat.zero_add]
  by_cases h : i < lo
  · rw [low i h, decide_eq_true hi, Bool.true_and]
  · have bit := congrArg (·.getLsbD (i - lo)) zero
    rw [high i (by omega)]
    simpa [show i - lo < 28 - lo by omega, show lo + (i - lo) = i by omega, hi] using bit

theorem payload_of_one_level {w : BitVec 32} (zero : w.extractLsb' 1 27 = 0#27) :
    w.extractLsb' 0 28 = levelBit (w.getLsbD 0) := by
  refine payload_eq_of_zeroFrom (lo := 1) zero (fun i hi => ?_) (fun i hi => ?_)
  · interval_cases i; simp
  · simp [show i ≠ 0 by omega]

theorem payload_of_two_levels {w : BitVec 32} (zero : w.extractLsb' 2 26 = 0#26) :
    w.extractLsb' 0 28 = (levelBit (w.getLsbD 1) <<< 1) ||| levelBit (w.getLsbD 0) := by
  refine payload_eq_of_zeroFrom (lo := 2) zero (fun i hi => ?_) (fun i hi => ?_)
  · interval_cases i <;> simp
  · simp [show i ≠ 0 by omega, show i - 1 ≠ 0 by omega]

theorem payload_of_three_levels {w : BitVec 32} (zero : w.extractLsb' 3 25 = 0#25) :
    w.extractLsb' 0 28 =
      (levelBit (w.getLsbD 2) <<< 2) ||| (levelBit (w.getLsbD 1) <<< 1) ||| levelBit (w.getLsbD 0) := by
  refine payload_eq_of_zeroFrom (lo := 3) zero (fun i hi => ?_) (fun i hi => ?_)
  · interval_cases i <;> simp
  · simp [show i ≠ 0 by omega, show i - 1 ≠ 0 by omega, show i - 2 ≠ 0 by omega]

theorem payload_of_snapshot {w : BitVec 32} (zero : w.extractLsb' 16 12 = 0#12) :
    w.extractLsb' 0 28 = (w.extractLsb' 0 16).setWidth 28 := by
  refine payload_eq_of_zeroFrom (lo := 16) zero (fun i hi => ?_) (fun i hi => ?_)
  · simp [hi, show i < 28 by omega]
  · simp [show ¬ i < 16 by omega]

/-! ## The decoder -/

theorem decodeWord_of_reservedOp {w : BitVec 32} (h : 0xA ≤ (opField w).toNat) : decodeWord w = .error .reservedOp := by
  unfold decodeWord
  split
  case h_11 => rfl
  all_goals omega

theorem acceptIfZeroFrom_ne_reservedOp (lo : Nat) (w : BitVec 32) (i : Instr) :
    acceptIfZeroFrom lo w i ≠ .error .reservedOp := by
  unfold acceptIfZeroFrom
  split <;> simp

theorem acceptIfZeroFrom_payload_end (w : BitVec 32) (i : Instr) : acceptIfZeroFrom 28 w i = .ok i :=
  acceptIfZeroFrom_eq_ok.mpr ⟨BitVec.eq_of_toNat_eq (by simp), rfl⟩

/-- The payload bits of `w` that its operation code does not use are 0 (R102). -/
abbrev UnusedPayloadZero (w : BitVec 32) : Prop :=
  w.extractLsb' (payloadBits (opField w).toNat) (28 - payloadBits (opField w).toNat) = 0

/-- `r` is the answer of a decoder that reads `w` as one instruction, which it accepts exactly when the unused payload
bits are 0, and whose encoding is then `w` (R102). -/
def ReadsAsOne (w : BitVec 32) (r : Except DecodeError Instr) : Prop :=
  ∃ i, r = acceptIfZeroFrom (payloadBits (opField w).toNat) w i ∧ (UnusedPayloadZero w → encode i = .word w)

theorem readsAsOne_of_payloadBits {w : BitVec 32} {lo : Nat} {i : Instr} (hlo : payloadBits (opField w).toNat = lo)
    (henc : w.extractLsb' lo (28 - lo) = 0#(28 - lo) → encode i = .word w) :
    ReadsAsOne w (acceptIfZeroFrom lo w i) := by
  subst hlo
  exact ⟨i, rfl, henc⟩

/-- A word of one of the ten operation codes is read as one instruction. -/
theorem decodeWord_readsAsOne {w : BitVec 32} (h : (opField w).toNat < 0xA) : ReadsAsOne w (decodeWord w) := by
  unfold decodeWord
  split
  case h_1 op | h_3 op | h_8 op | h_9 op =>
    exact readsAsOne_of_payloadBits (congrArg payloadBits op) fun zero => makeWord_of_fields op zero
  case h_2 op =>
    exact readsAsOne_of_payloadBits (congrArg payloadBits op) fun zero =>
      makeWord_of_fields op (payload_of_two_levels zero)
  case h_4 op =>
    exact readsAsOne_of_payloadBits (congrArg payloadBits op) fun zero =>
      makeWord_of_fields op (payload_of_snapshot zero)
  case h_5 op | h_6 op =>
    exact readsAsOne_of_payloadBits (congrArg payloadBits op) fun zero =>
      makeWord_of_fields op (payload_of_one_level zero)
  case h_7 op =>
    exact readsAsOne_of_payloadBits (congrArg payloadBits op) fun zero =>
      makeWord_of_fields op (payload_of_three_levels zero)
  case h_10 op =>
    rw [← acceptIfZeroFrom_payload_end w]
    exact readsAsOne_of_payloadBits (congrArg payloadBits op) fun _ => makeWord_of_fields op rfl
  case h_11 => grind

/-- The decoder accepts a word exactly when its operation code is not reserved and its unused payload bits are 0
(R103). -/
theorem exists_decodeWord_iff {w : BitVec 32} :
    (∃ i, decodeWord w = .ok i) ↔ (opField w).toNat < 0xA ∧ UnusedPayloadZero w := by
  by_cases h : (opField w).toNat < 0xA
  · obtain ⟨i, hread, -⟩ := decodeWord_readsAsOne h
    simp [hread, acceptIfZeroFrom_eq_ok, UnusedPayloadZero, h]
  · simp [decodeWord_of_reservedOp (Nat.le_of_not_lt h), h]

theorem encode_of_decodeWord {w : BitVec 32} {i : Instr} (h : decodeWord w = .ok i) : encode i = .word w := by
  obtain ⟨hop, zero⟩ := exists_decodeWord_iff.mp ⟨i, h⟩
  obtain ⟨j, hread, henc⟩ := decodeWord_readsAsOne hop
  obtain ⟨-, rfl⟩ := acceptIfZeroFrom_eq_ok.mp (hread ▸ h)
  exact henc zero

theorem encode_decodeIndex (k : BitVec 4) : encode (decodeIndex k) = .index k := by
  revert k; decide

/-- Settles O2: a word is the word of the instruction it is read as, and an index selects the entry it numbers. -/
theorem encodeReturnsWhatDecodeRead : Obligations.EncodeReturnsWhatDecodeRead := by
  intro x i h
  cases x with
  | word w => exact encode_of_decodeWord h
  | index k =>
    cases h
    exact encode_decodeIndex k

/-! ## The encoder -/

/-- `SCAN` reads back the snapshot that fills the low 16 payload bits. -/
theorem decodeWord_scan (r : BitVec 16) : decodeWord (wordOf 0x3 (r.setWidth 28)) = .ok (.scan r) := by
  have unused : (wordOf 0x3 (r.setWidth 28)).extractLsb' 16 12 = 0#12 := by
    rw [extractLsb'_wordOf _ _ (by decide), BitVec.extractLsb'_setWidth_of_le (by decide)]
    exact BitVec.eq_of_getLsbD_eq fun i _ => by simp
  have snapshot : (wordOf 0x3 (r.setWidth 28)).extractLsb' 0 16 = r := by
    rw [extractLsb'_wordOf _ _ (by decide), BitVec.extractLsb'_setWidth_of_le (by decide), BitVec.extractLsb'_eq_self]
  rw [decodeWord, opField_wordOf]
  exact acceptIfZeroFrom_eq_ok.mpr ⟨unused, congrArg Instr.scan snapshot⟩

/-- `TADV` reads back the delay that fills the payload. -/
theorem decodeWord_tadv (d : BitVec 28) : decodeWord (wordOf 0x9 d) = .ok (.tadv d) := by
  have delay : (wordOf 0x9 d).extractLsb' 0 28 = d := by
    rw [extractLsb'_wordOf _ _ (by decide), BitVec.extractLsb'_eq_self]
  rw [decodeWord, opField_wordOf]
  exact congrArg (fun v => Except.ok (Instr.tadv v)) delay

/-- Settles O1, by cases on the instruction: a level operand has two values, a snapshot and a delay are read back from
their payload fields, and an operation without operands has one word or index. -/
theorem decodeReturnsWhatEncodeWrote : Obligations.DecodeReturnsWhatEncodeWrote := by
  intro i
  cases i with
  | qedge a b => cases a <;> cases b <;> rfl
  | emsedge lvl | emschk lvl => cases lvl <;> rfl
  | axedge xn yn zn => cases xn <;> cases yn <;> cases zn <;> rfl
  | scan r => exact decodeWord_scan r
  | tadv d => exact decodeWord_tadv d
  | rst | xchg | disp | refr
  | lut0 | lut1 | lut2 | lut3 | lut4 | lut5 | lut6 | lut7
  | lut8 | lut9 | lut10 | lut11 | lut12 | lut13 | lut14 | lut15 => rfl

/-- Settles O3: a level operand has two values, and a wider payload extends to the word as its operand does. -/
theorem encodingsAreTheRulesWords : Obligations.EncodingsAreTheRulesWords := by
  refine ⟨rfl, fun a b => ?_, rfl, fun r => ?_, fun lvl => ?_, fun lvl => ?_, fun xn yn zn => ?_, rfl, rfl, fun d => rfl⟩
  · cases a <;> cases b <;> rfl
  · have wide : (r.setWidth 28).setWidth 32 = r.setWidth 32 := BitVec.setWidth_setWidth (by decide)
    rw [encode, makeWord, wide]
    rfl
  · cases lvl <;> rfl
  · cases lvl <;> rfl
  · cases xn <;> cases yn <;> cases zn <;> rfl

/-- Settles O5: each listed word evaluates. -/
theorem listedWordsDecode : Obligations.ListedWordsDecode := by
  unfold Obligations.ListedWordsDecode
  decide

end Sys2Proof
end

section
/-!
PROOFS. What is refused (R103, R69, R91): the words the opcode table does not list, and an operation that is not
enabled.
-/

namespace Sys2Proof

/-! ## The words of the opcode table -/

theorem encodesToItsRow (i : Instr) : Laws.EncodesToItsRow.Statement i := by
  cases i with
  | rst => exact Laws.EncodesToItsRow.rst
  | qedge a b => exact Laws.EncodesToItsRow.qedge a b
  | xchg => exact Laws.EncodesToItsRow.xchg
  | scan r => exact Laws.EncodesToItsRow.scan r
  | emsedge lvl => exact Laws.EncodesToItsRow.emsedge lvl
  | emschk lvl => exact Laws.EncodesToItsRow.emschk lvl
  | axedge xn yn zn => exact Laws.EncodesToItsRow.axedge xn yn zn
  | disp => exact Laws.EncodesToItsRow.disp
  | refr => exact Laws.EncodesToItsRow.refr
  | tadv d => exact Laws.EncodesToItsRow.tadv d
  | lut0 | lut1 | lut2 | lut3 | lut4 | lut5 | lut6 | lut7
  | lut8 | lut9 | lut10 | lut11 | lut12 | lut13 | lut14 | lut15 => rfl

theorem wellFormed_word_iff {w : BitVec 32} :
    (Stimulus.word w).wellFormed = true ↔ ∃ row ∈ wordRows, row.admits w = true :=
  List.any_eq_true

theorem wellFormed_of_decodeWord {w : BitVec 32} {i : Instr} (h : decodeWord w = .ok i) :
    (Stimulus.word w).wellFormed = true := by
  have fits := encodesToItsRow i
  rw [Laws.EncodesToItsRow.Statement, encode_of_decodeWord h] at fits
  obtain ⟨row, mem, -, adm⟩ := fits
  exact wellFormed_word_iff.mpr ⟨row, mem, adm⟩

/-- Each row of the table has an operation code that is not reserved, fixes it, and fixes the unused payload bits
to 0. -/
theorem wordRows_fix : ∀ row ∈ wordRows,
    (opField row.pattern).toNat < 0xA ∧ UnusedPayloadZero row.pattern ∧ opField row.mask = BitVec.allOnes 4 ∧
    row.mask.extractLsb' (payloadBits (opField row.pattern).toNat) (28 - payloadBits (opField row.pattern).toNat) =
      BitVec.allOnes (28 - payloadBits (opField row.pattern).toNat) := by
  decide

/-- Where a row's mask is all ones, a word the row admits has the row's bits. -/
theorem extractLsb'_of_admits {row : WordRow} {w : BitVec 32} {lo len : Nat} (adm : row.admits w = true)
    (fixed : row.mask.extractLsb' lo len = BitVec.allOnes len) :
    w.extractLsb' lo len = row.pattern.extractLsb' lo len := by
  rw [← beq_iff_eq.mp adm, BitVec.extractLsb'_and, fixed, BitVec.and_allOnes]

theorem exists_decodeWord_of_admits {row : WordRow} {w : BitVec 32} (mem : row ∈ wordRows)
    (adm : row.admits w = true) : ∃ i, decodeWord w = .ok i := by
  obtain ⟨code, zero, fixedOp, fixedPayload⟩ := wordRows_fix row mem
  have op : opField w = opField row.pattern := extractLsb'_of_admits adm fixedOp
  rw [exists_decodeWord_iff, UnusedPayloadZero, op, extractLsb'_of_admits adm fixedPayload]
  exact ⟨code, zero⟩

theorem exists_decodeWord_iff_wellFormed (w : BitVec 32) :
    (∃ i, decodeWord w = .ok i) ↔ (Stimulus.word w).wellFormed = true := by
  constructor
  · rintro ⟨i, h⟩
    exact wellFormed_of_decodeWord h
  · intro h
    obtain ⟨row, mem, adm⟩ := wellFormed_word_iff.mp h
    exact exists_decodeWord_of_admits mem adm

theorem decodeWord_eq_reservedOp_iff (w : BitVec 32) :
    decodeWord w = .error .reservedOp ↔ 0xA ≤ (opField w).toNat := by
  refine ⟨fun h => ?_, decodeWord_of_reservedOp⟩
  by_contra hlt
  obtain ⟨i, hread, -⟩ := decodeWord_readsAsOne (Nat.lt_of_not_le hlt)
  exact acceptIfZeroFrom_ne_reservedOp _ w i (hread ▸ h)

theorem exists_error_of_not_wellFormed {w : BitVec 32} (h : (Stimulus.word w).wellFormed = false) :
    ∃ e, decodeWord w = .error e := by
  cases hd : decodeWord w with
  | error e => exact ⟨e, rfl⟩
  | ok i =>
    rw [wellFormed_of_decodeWord hd] at h
    cases h

end Sys2Proof

namespace Sys2Proof.Machine

/-! ## The refusals of a step -/

theorem step_of_decode_error {s t : State} {x : Stimulus} {e : DecodeError} (hf : fetch s = some (x, t))
    (hd : decode x = .error e) : step s = .refused (.badWord e) := by
  simp [step, hf, hd]

theorem decodeEntry_of_prev_ne {frm smp : BitVec 2} {step : Int} {s : State} (h : s.prev ≠ frm) :
    decodeEntry frm smp step s = .refused .indexNotFormed :=
  if_neg h

/-- An operation that is not enabled is refused: a task operation with its flag at 0 (R69), a table entry whose index
`PREV` does not form (R91). -/
theorem exec_refused_of_not_enabled {i : Instr} {s : State} (h : enabled i s = false) :
    ∃ why, exec i s = .refused why := by
  cases i with
  | scan r => exact ⟨.scanNotEnabled, if_neg (ne_true_of_eq_false h)⟩
  | emschk lvl => exact ⟨.emschkNotEnabled, if_neg (ne_true_of_eq_false h)⟩
  | disp => exact ⟨.dispNotEnabled, if_neg (ne_true_of_eq_false h)⟩
  | rst | qedge | xchg | emsedge | axedge | refr | tadv => cases h
  | lut0 | lut1 | lut2 | lut3 | lut4 | lut5 | lut6 | lut7
  | lut8 | lut9 | lut10 | lut11 | lut12 | lut13 | lut14 | lut15 =>
    exact ⟨.indexNotFormed, decodeEntry_of_prev_ne (of_decide_eq_false h)⟩

/-- Settles O4: the decoder accepts the table's words only, and a step passes on the refusal of the decoder or of the
operation. -/
theorem reservedWordsAreRefused : Obligations.ReservedWordsAreRefused := by
  refine ⟨exists_decodeWord_iff_wellFormed, decodeWord_eq_reservedOp_iff, ?_, ?_⟩
  · intro s w rest hs bad
    obtain ⟨e, hd⟩ := exists_error_of_not_wellFormed bad
    exact ⟨e, step_of_decode_error (fetch_of_stim_cons hs) hd⟩
  · intro s w rest i hs hd disabled
    rw [step_of_fetch_some (fetch_of_stim_cons hs) hd]
    exact exec_refused_of_not_enabled disabled

end Sys2Proof.Machine
end

section
/-!
PROOFS. The LUT index and the step table (30_encoding.md R91 to R93), and the entry of an index as the meaning of the
`QEDGE` that forms it (40_quadrature_decoder.md R130 to R146).
-/

namespace Sys2Proof.Machine

/-! ## The step table (R92, R93) -/

/-- The sample with its two levels exchanged. -/
def swapLevels (smp : BitVec 2) : BitVec 2 := BitVec.ofBool (smp.getLsbD 0) ++ BitVec.ofBool (smp.getLsbD 1)

theorem lut_values (k : BitVec 4) : lut k = -1 ∨ lut k = 0 ∨ lut k = 1 := by
  revert k; decide

theorem lut_reverse (p q : BitVec 2) : lut (lutIndex q p) = -lut (lutIndex p q) := by
  revert p q; decide

theorem lut_swapLevels (p q : BitVec 2) : lut (lutIndex (swapLevels p) (swapLevels q)) = -lut (lutIndex p q) := by
  revert p q; decide

theorem lut_eq_zero_iff (p q : BitVec 2) : lut (lutIndex p q) = 0 ↔ p = q ∨ p = ~~~q := by
  revert p q; decide

theorem lut_eq_one_iff (p q : BitVec 2) : lut (lutIndex p q) = 1 ↔ q = positiveNext p := by
  revert p q; decide

theorem lut_eq_neg_one_iff (p q : BitVec 2) : lut (lutIndex p q) = -1 ↔ q = negativeNext p := by
  revert p q; decide

/-- The class of an index is read off its entry, and where the entry is 0 off the samples' bits (R93). -/
theorem indexClass_cases (p q : BitVec 2) :
    (indexClass p q = .unchanged ∧ p = q ∧ p ≠ ~~~q ∧ lut (lutIndex p q) = 0) ∨
    (indexClass p q = .invalid ∧ p ≠ q ∧ p = ~~~q ∧ lut (lutIndex p q) = 0) ∨
    (indexClass p q = .positive ∧ p ≠ q ∧ p ≠ ~~~q ∧ lut (lutIndex p q) = 1) ∨
    (indexClass p q = .negative ∧ p ≠ q ∧ p ≠ ~~~q ∧ lut (lutIndex p q) = -1) := by
  revert p q; decide

/-- Settles O14: the facts about the entries, and the four classes. -/
theorem stepTableIsAntisymmetric : Obligations.StepTableIsAntisymmetric := by
  intro p q
  refine ⟨lut_values _, lut_reverse p q, lut_swapLevels p q, lut_eq_zero_iff p q, lut_eq_one_iff p q,
    lut_eq_neg_one_iff p q, ?_⟩
  obtain ⟨cls, same, opposite, entry⟩ | ⟨cls, same, opposite, entry⟩ | ⟨cls, same, opposite, entry⟩ |
    ⟨cls, same, opposite, entry⟩ := indexClass_cases p q
  all_goals simp only [cls, entry]; simp [same, opposite]

/-! ## The entries as instructions -/

theorem bitVec2_cases (p : BitVec 2) : p = 0 ∨ p = 1 ∨ p = 2 ∨ p = 3 := by
  revert p; decide

/-- The sixteen entry rules at once: the entry of the index `{frm, smp}` decodes that index with its value in the step
table (R131 to R146). -/
theorem exec_decodeIndex (frm smp : BitVec 2) (s : State) :
    exec (decodeIndex (lutIndex frm smp)) s = decodeEntry frm smp (lut (lutIndex frm smp)) s := by
  obtain rfl | rfl | rfl | rfl := bitVec2_cases frm
  all_goals obtain rfl | rfl | rfl | rfl := bitVec2_cases smp
  all_goals rfl

/-- At `PREV` the entry of a sample takes that sample (R91, R130). -/
theorem decodeEntry_prev (smp : BitVec 2) (s : State) :
    decodeEntry s.prev smp (lut (lutIndex s.prev smp)) s = .next (takeSample smp s) :=
  if_pos rfl

/-- Settles O13: both sides take the sample. -/
theorem qedgeIsTheEntryOfItsIndex : Obligations.QedgeIsTheEntryOfItsIndex := by
  intro s a b
  rw [exec_decodeIndex, decodeEntry_prev]
  rfl

end Sys2Proof.Machine
end

section
/-!
PROOFS. The derived values of 30_encoding.md: the feed decode of `SCAN` (R96) and the enumerations' codes and texts
(R97, R98, R100).
-/

namespace Sys2Proof.Machine

/-- `SCAN` writes the decoded feed, whatever the interlock state and the press edges (R173). -/
theorem feed_of_execScan {r : BitVec 16} {s t : State} (h : execScan r s = .next t) :
    t.feed = feedDecode s.params r := by
  obtain ⟨-, rfl⟩ := execScan_eq_next.mp h
  obtain ⟨es, toggle, fires, hbody⟩ := scanBody_frame r (clearPend .scan s)
  rw [hbody, clearPend_params]

/-- Settles O25, by cases on the first active bit in the order of R96. -/
theorem feedFollowsThePriority : Obligations.FeedFollowsThePriority := by
  intro s t r h active
  rw [feed_of_execScan h, feedDecode]
  by_cases full : active s.params.feedBitFull
  · rw [if_pos full]; simp [full]
  rw [if_neg full]
  by_cases milli : active s.params.feedBitMilli
  · rw [if_pos milli]; simp [full, milli]
  rw [if_neg milli]
  by_cases micro : active s.params.feedBitMicro
  · rw [if_pos micro]; simp [full, milli, micro]
  · rw [if_neg micro]; simp [full, milli, micro]

theorem toInt_senseCode (d : Sense) : (senseCode d).toInt = senseInt d := by
  cases d <;> rfl

theorem variantCode_variantOf (bit : Bool) : variantCode (variantOf bit) = BitVec.ofBool bit := by
  cases bit <;> rfl

/-- Settles O34: each code is the definition's own value; a direction's code is its two's complement, and a variant's
code the toggle bit that selects it. -/
theorem enumCodesAreTheRules : Obligations.EnumCodesAreTheRules :=
  ⟨by decide, by decide, by decide, by decide, by decide, by decide, toInt_senseCode, fun _ => ⟨rfl, rfl⟩, by decide,
    rfl, rfl, variantCode_variantOf⟩

end Sys2Proof.Machine
end

section
/-!
PROOFS. The quadrature decoder (40_quadrature_decoder.md). First the rules of unit Q: what an accumulation does below
and at the detent, what taking a sample does, and what an entry does at its `PREV`. Then the entries and `QEDGE`
(R130 to R149), and last runs of samples: the sums that commit nothing, the full cycle, and two detents before one
`DISP` (R151, R152).
-/

namespace Sys2Proof.Machine

/-! ## The rules of unit Q -/

/-- The state in which a tick of direction `d` has just been committed (R148). -/
def withTick (d : Sense) (s : State) : State :=
  { s with acc := 0, dir := d, tickPend := true, ghost := { s.ghost with nCommit := s.ghost.nCommit + 1 } }

theorem senseInt_of_ne_neutral {d : Sense} (signed : d ≠ .neutral) : senseInt d = 1 ∨ senseInt d = -1 := by
  cases d with
  | neutral => exact absurd rfl signed
  | plus => exact .inl rfl
  | minus => exact .inr rfl

theorem plus_ne_neutral : Sense.plus ≠ .neutral := by decide

theorem minus_ne_neutral : Sense.minus ≠ .neutral := by decide

theorem accumulate_commit {step : Int} {d : Sense} {s : State} (smp : BitVec 2) (signed : d ≠ .neutral)
    (sum : s.acc.toInt + step = 4 * senseInt d) :
    accumulate smp step s = withTick d { s with prev := smp } := by
  cases d with
  | neutral => exact absurd rfl signed
  | plus =>
    obtain ⟨-, h⟩ | ⟨down, -⟩ | ⟨below, -, -⟩ := accumulate_cases smp step s
    · exact h
    · exact absurd (down.symm.trans sum) (by decide)
    · exact absurd sum below
  | minus =>
    obtain ⟨up, -⟩ | ⟨-, h⟩ | ⟨-, above, -⟩ := accumulate_cases smp step s
    · exact absurd (up.symm.trans sum) (by decide)
    · exact h
    · exact absurd sum above

theorem accumulate_count {step : Int} {s : State} (smp : BitVec 2) (below : s.acc.toInt + step ≠ 4)
    (above : s.acc.toInt + step ≠ -4) :
    accumulate smp step s = { s with prev := smp, acc := BitVec.ofInt 4 (s.acc.toInt + step) } := by
  obtain ⟨sum, -⟩ | ⟨sum, -⟩ | ⟨-, -, h⟩ := accumulate_cases smp step s
  · exact absurd sum below
  · exact absurd sum above
  · exact h

/-- A sample by the value of the sum, as the pseudocode of R130 branches on it. -/
theorem takeSample_eq (smp : BitVec 2) (s : State) :
    takeSample smp s =
      if smp = s.prev then s
      else if s.acc.toInt + lut (lutIndex s.prev smp) = 4 then withTick .plus { s with prev := smp }
      else if s.acc.toInt + lut (lutIndex s.prev smp) = -4 then withTick .minus { s with prev := smp }
      else { s with prev := smp, acc := BitVec.ofInt 4 (s.acc.toInt + lut (lutIndex s.prev smp)) } := by
  obtain ⟨same, h⟩ | ⟨changed, h⟩ := takeSample_cases smp s
  · rw [h, if_pos same]
  rw [h, if_neg changed]
  by_cases up : s.acc.toInt + lut (lutIndex s.prev smp) = 4
  · rw [if_pos up, accumulate_commit smp plus_ne_neutral up]
  rw [if_neg up]
  by_cases down : s.acc.toInt + lut (lutIndex s.prev smp) = -4
  · rw [if_pos down, accumulate_commit smp minus_ne_neutral down]
  · rw [if_neg down, accumulate_count smp up down]

/-- A sum off 4 and -4 is stored, also for an unchanged sample, which contributes 0. -/
theorem takeSample_count {smp : BitVec 2} {s : State} (below : s.acc.toInt + lut (lutIndex s.prev smp) ≠ 4)
    (above : s.acc.toInt + lut (lutIndex s.prev smp) ≠ -4) :
    takeSample smp s =
      { s with prev := smp, acc := BitVec.ofInt 4 (s.acc.toInt + lut (lutIndex s.prev smp)) } := by
  obtain ⟨rfl, h⟩ | ⟨-, h⟩ := takeSample_cases smp s
  · rw [h, lut_unchanged, Int.add_zero, BitVec.ofInt_toInt]
  · rw [h, accumulate_count smp below above]

/-- Under R42 (a) a sum of 4 or -4 needs a changed sample, and commits. -/
theorem takeSample_commit {smp : BitVec 2} {d : Sense} {s : State} (lo : -3 ≤ s.acc.toInt) (hi : s.acc.toInt ≤ 3)
    (signed : d ≠ .neutral) (sum : s.acc.toInt + lut (lutIndex s.prev smp) = 4 * senseInt d) :
    takeSample smp s = withTick d { s with prev := smp } := by
  obtain ⟨rfl, -⟩ | ⟨-, h⟩ := takeSample_cases smp s
  · rw [lut_unchanged] at sum
    obtain unit | unit := senseInt_of_ne_neutral signed <;> omega
  · rw [h, accumulate_commit smp signed sum]

theorem exec_qedge (a b : Bool) (s : State) :
    exec (.qedge a b) s = .next (takeSample (sample s.params a b) s) := rfl

theorem decodeEntry_unchanged {frm : BitVec 2} {step : Int} {s : State} (form : s.prev = frm) :
    decodeEntry frm frm step s = .next s :=
  decodeEntry_eq_next.mpr ⟨form, (if_pos rfl).symm⟩

theorem decodeEntry_changed {frm smp : BitVec 2} {step : Int} {s : State} (form : s.prev = frm)
    (changed : smp ≠ frm) : decodeEntry frm smp step s = .next (accumulate smp step s) :=
  decodeEntry_eq_next.mpr ⟨form, (if_neg changed).symm⟩

/-! ## The entries of the step table (R131 to R146) -/

/-- Settles O9: an index formed of two equal samples is decoded without a write, by an entry and by `QEDGE`. -/
theorem unchangedEntriesWriteNothing : Obligations.UnchangedEntriesWriteNothing := by
  refine ⟨by decide, fun p => if_pos rfl, fun s => ?_, fun s a b same => ?_⟩
  · exact ⟨decodeEntry_unchanged, decodeEntry_unchanged, decodeEntry_unchanged, decodeEntry_unchanged⟩
  · rw [exec_qedge, takeSample_eq, if_pos same]

/-- A changed sample that contributes 0 only advances `PREV`. -/
theorem accumulate_zero {s : State} (smp : BitVec 2) (lo : -3 ≤ s.acc.toInt) (hi : s.acc.toInt ≤ 3) :
    accumulate smp 0 s = { s with prev := smp } := by
  rw [accumulate_count smp (by omega) (by omega), Int.add_zero, BitVec.ofInt_toInt]

/-- Settles O10: at its `PREV` an invalid entry accumulates 0. -/
theorem invalidEntriesKeepTheAccumulator : Obligations.InvalidEntriesKeepTheAccumulator := by
  refine ⟨by decide, by decide, fun s lo hi => ?_⟩
  have advance {frm smp : BitVec 2} (changed : smp ≠ frm) (form : s.prev = frm) :
      decodeEntry frm smp 0 s = .next { s with prev := smp } := by
    rw [decodeEntry_changed form changed, accumulate_zero smp lo hi]
  exact ⟨advance (by decide), advance (by decide), advance (by decide), advance (by decide)⟩

/-- A unit step either completes a detent or moves `ACC` by the step, without overflow (R147, R148). -/
theorem accumulate_unit {d : Sense} {s : State} (smp : BitVec 2) (signed : d ≠ .neutral) (lo : -3 ≤ s.acc.toInt)
    (hi : s.acc.toInt ≤ 3) :
    accumulate smp (senseInt d) s =
      if s.acc.toInt = 3 * senseInt d then withTick d { s with prev := smp }
      else { s with prev := smp, acc := s.acc + BitVec.ofInt 4 (senseInt d) } := by
  by_cases last : s.acc.toInt = 3 * senseInt d
  · rw [if_pos last, accumulate_commit smp signed (by omega)]
  · obtain unit | unit := senseInt_of_ne_neutral signed
    all_goals
      rw [if_neg last, accumulate_count smp (by omega) (by omega), BitVec.ofInt_add, BitVec.ofInt_toInt]

/-- The entry of a unit step at its `PREV`. -/
theorem decodeEntry_unit {frm smp : BitVec 2} {d : Sense} {s : State} (signed : d ≠ .neutral)
    (lo : -3 ≤ s.acc.toInt) (hi : s.acc.toInt ≤ 3) (changed : smp ≠ frm) (form : s.prev = frm) :
    decodeEntry frm smp (senseInt d) s = .next
      (if s.acc.toInt = 3 * senseInt d then withTick d { s with prev := smp }
       else { s with prev := smp, acc := s.acc + BitVec.ofInt 4 (senseInt d) }) := by
  rw [decodeEntry_changed form changed, accumulate_unit smp signed lo hi]

/-- Settles O11: the positive entries are unit steps of direction `+`. -/
theorem positiveEntriesStepUp : Obligations.PositiveEntriesStepUp := by
  refine ⟨by decide, by decide, rfl, fun s lo hi => ?_⟩
  have up {frm smp : BitVec 2} := decodeEntry_unit (frm := frm) (smp := smp) plus_ne_neutral lo hi
  exact ⟨up (by decide), up (by decide), up (by decide), up (by decide)⟩

/-- Settles O12: the negative entries are unit steps of direction `-`, and adding -1 in `ACC` is subtracting 1. -/
theorem negativeEntriesStepDown : Obligations.NegativeEntriesStepDown := by
  refine ⟨by decide, by decide, rfl, fun s lo hi => ?_⟩
  rw [BitVec.sub_eq_add_neg]
  have down {frm smp : BitVec 2} := decodeEntry_unit (frm := frm) (smp := smp) minus_ne_neutral lo hi
  exact ⟨down (by decide), down (by decide), down (by decide), down (by decide)⟩

/-! ## One QEDGE (R130, R147, R152 e) -/

/-- The table of R92 at the index `{prev, smp}`, read as 4 times the one and the other (R91). -/
theorem lut_lutIndex (prev smp : BitVec 2) :
    lut (lutIndex prev smp) = stepTable.getD (4 * prev.toNat + smp.toNat) 0 := by
  revert prev smp; decide

/-- Settles O7: the sample is the pair of levels in the order of the parameter, and R130 branches on the sum. -/
theorem qedgeFollowsTheStepTable : Obligations.QedgeFollowsTheStepTable := by
  intro s a b smp table acc1 commit
  obtain ⟨-, words, -⟩ := encodingsAreTheRulesWords
  refine ⟨?_, words a b⟩
  rw [exec_qedge, takeSample_eq, lut_lutIndex]
  rfl

/-- Settles O8: the sum is off 4 and -4 and small enough to be stored, or it is four times the direction. -/
theorem accumulationNeverOverflows : Obligations.AccumulationNeverOverflows := by
  intro s a b lo hi acc1
  obtain ⟨lutLo, lutHi⟩ := lut_range (lutIndex s.prev (sample s.params a b))
  have range : -4 ≤ acc1 ∧ acc1 ≤ 4 := ⟨by omega, by omega⟩
  refine ⟨range, fun t h => ?_⟩
  rw [exec_qedge] at h
  cases h
  refine ⟨fun below above => ?_, fun sum => ?_, fun sum => ?_⟩
  · rw [takeSample_count below above]
    exact ⟨toInt_ofInt_acc (by omega) (by omega), rfl, rfl⟩
  · rw [takeSample_commit lo hi plus_ne_neutral sum]
    exact ⟨rfl, rfl, rfl⟩
  · rw [takeSample_commit lo hi minus_ne_neutral sum]
    exact ⟨rfl, rfl, rfl⟩

theorem sample_congr {p q : Params} (order : p.qAIsMsb = q.qAIsMsb) (a b : Bool) : sample p a b = sample q a b := by
  rw [sample, sample, order]

/-- Settles O17: two states that agree on `PREV` and `ACC` take the same branch of R130. -/
theorem qedgeReadsOnlyUnitQ : Obligations.QedgeReadsOnlyUnitQ := by
  intro s t s' t' a b prev acc order hs ht
  rw [exec_qedge] at hs ht
  cases hs
  cases ht
  rw [sample_congr order, takeSample_eq, takeSample_eq, prev, acc]
  split_ifs with same
  · exact ⟨prev, acc, by omega, fun moved => absurd rfl moved⟩
  · simp [withTick]
  · simp [withTick]
  · simp

/-! ## Runs of samples (R151, R152) -/

theorem execList_cons_sample (smp : BitVec 2) (l : List Instr) (s : State) :
    execList (qedgeOf s.params smp :: l) s = execList l (takeSample smp s) :=
  execList_cons_of_next l (exec_qedgeOf smp s)

/-- The samples of a run whose sums stay off 4 and -4 are all counted: the first one is stored, and the sums of the
others start from the stored `ACC`. -/
theorem execList_counted {l : List (BitVec 2)} {s : State}
    (inside : ∀ n, n ≤ l.length → -3 ≤ s.acc.toInt + contributions s.prev (l.take n) ∧
      s.acc.toInt + contributions s.prev (l.take n) ≤ 3) :
    execList (l.map (qedgeOf s.params)) s =
      .next { s with prev := l.getLastD s.prev, acc := BitVec.ofInt 4 (s.acc.toInt + contributions s.prev l) } := by
  induction l generalizing s with
  | nil => simp [execList, contributions]
  | cons smp rest ih =>
    obtain ⟨lo, hi⟩ : -3 ≤ s.acc.toInt + lut (lutIndex s.prev smp) ∧
        s.acc.toInt + lut (lutIndex s.prev smp) ≤ 3 := by
      simpa [contributions] using inside 1 (by simp)
    have counted := takeSample_count (smp := smp) (s := s) (by omega) (by omega)
    have stored := toInt_ofInt_acc (v := s.acc.toInt + lut (lutIndex s.prev smp)) (by omega) (by omega)
    have run := ih (s := takeSample smp s) (by
      rw [counted, stored]
      intro n hn
      simpa [contributions, Int.add_assoc] using inside (n + 1) (by simpa using hn))
    rw [counted, stored] at run
    rw [List.map_cons, execList_cons_sample, counted, run, List.getLastD_cons, contributions, Int.add_assoc]

/-- Settles O16. -/
theorem noCommitWhileSumsStayInside : Obligations.NoCommitWhileSumsStayInside :=
  fun _ _ => execList_counted

/-- The encoder one step on in the direction `d` (R93). -/
def turn : Sense → BitVec 2 → BitVec 2
  | .neutral => id
  | .plus => positiveNext
  | .minus => negativeNext

theorem lut_turn (d : Sense) (p : BitVec 2) : lut (lutIndex p (turn d p)) = senseInt d := by
  cases d with
  | neutral => exact lut_unchanged p
  | plus => exact (lut_eq_one_iff p _).mpr rfl
  | minus => exact (lut_eq_neg_one_iff p _).mpr rfl

theorem turn_four_times (d : Sense) (p : BitVec 2) : turn d (turn d (turn d (turn d p))) = p := by
  cases d with
  | neutral => rfl
  | plus | minus => revert p; decide

/-- The three samples of a cycle in the direction `d` before its last one. -/
def threeTurns (d : Sense) (p : BitVec 2) : List (BitVec 2) := [turn d p, turn d (turn d p), turn d (turn d (turn d p))]

/-- The four samples of one full cycle in the direction `d` (R152 c). -/
def fullTurn (d : Sense) (p : BitVec 2) : List (BitVec 2) := threeTurns d p ++ [p]

theorem positiveCycle_eq (p : BitVec 2) : positiveCycle p = fullTurn .plus p := rfl

theorem negativeCycle_eq (p : BitVec 2) : negativeCycle p = fullTurn .minus p := rfl

theorem contributions_threeTurns (d : Sense) (p : BitVec 2) {n : Nat} (hn : n ≤ 3) :
    contributions p ((threeTurns d p).take n) = n * senseInt d := by
  interval_cases n <;> simp [threeTurns, contributions, lut_turn] <;> omega

/-- The state three steps in the direction `d` after `s`, where `ACC` was 0. -/
def afterThreeTurns (d : Sense) (s : State) : State :=
  { s with prev := turn d (turn d (turn d s.prev)), acc := BitVec.ofInt 4 (3 * senseInt d) }

theorem afterThreeTurns_acc {d : Sense} (signed : d ≠ .neutral) (s : State) :
    (afterThreeTurns d s).acc.toInt = 3 * senseInt d := by
  obtain unit | unit := senseInt_of_ne_neutral signed <;> exact toInt_ofInt_acc (by omega) (by omega)

/-- Three steps in one direction from `ACC` = 0 stay inside the bounds of R152 (b). -/
theorem execList_threeTurns {d : Sense} {s : State} (signed : d ≠ .neutral) (zero : s.acc = 0) :
    execList ((threeTurns d s.prev).map (qedgeOf s.params)) s = .next (afterThreeTurns d s) := by
  have start : s.acc.toInt = 0 := by rw [zero]; rfl
  have total : contributions s.prev (threeTurns d s.prev) = 3 * senseInt d :=
    contributions_threeTurns d s.prev (n := 3) (by decide)
  rw [execList_counted, start, total, Int.zero_add]
  · rfl
  · intro n hn
    have hn : n ≤ 3 := hn
    rw [start, contributions_threeTurns d s.prev hn]
    obtain unit | unit := senseInt_of_ne_neutral signed <;> rw [unit] <;> omega

/-- A step in the direction `d` from three times `d` completes the detent (R148). -/
theorem execList_last_step {d : Sense} {s : State} {smp : BitVec 2} (signed : d ≠ .neutral)
    (three : s.acc.toInt = 3 * senseInt d) (entry : lut (lutIndex s.prev smp) = senseInt d) :
    execList [qedgeOf s.params smp] s = .next (withTick d { s with prev := smp }) := by
  obtain ⟨lo, hi⟩ : -3 ≤ s.acc.toInt ∧ s.acc.toInt ≤ 3 := by
    obtain unit | unit := senseInt_of_ne_neutral signed <;> omega
  rw [execList_cons_sample, takeSample_commit lo hi signed (by omega), execList]

/-- A full cycle from `ACC` = 0 commits at its last step, back at the sample it started from. -/
theorem execList_fullTurn {d : Sense} {s : State} (signed : d ≠ .neutral) (zero : s.acc = 0) :
    execList ((fullTurn d s.prev).map (qedgeOf s.params)) s = .next (withTick d s) := by
  rw [fullTurn, List.map_append, execList_append _ _ _ _ (execList_threeTurns signed zero)]
  have closing := lut_turn d (turn d (turn d (turn d s.prev)))
  rw [turn_four_times] at closing
  exact execList_last_step (s := afterThreeTurns d s) signed (afterThreeTurns_acc signed s) closing

theorem withTick_of_acc_zero {d : Sense} {s : State} (zero : s.acc = 0) :
    withTick d s =
      { s with dir := d, tickPend := true, ghost := { s.ghost with nCommit := s.ghost.nCommit + 1 } } := by
  rw [withTick, zero]

/-- Settles O15: the first three samples of a cycle are counted, and the fourth commits. -/
theorem fullCycleCommitsOneTick : Obligations.FullCycleCommitsOneTick := by
  intro s zero
  rw [positiveCycle_eq, negativeCycle_eq, ← withTick_of_acc_zero (d := .plus) zero,
    ← withTick_of_acc_zero (d := .minus) zero]
  exact ⟨execList_threeTurns plus_ne_neutral zero, execList_threeTurns minus_ne_neutral zero,
    execList_fullTurn plus_ne_neutral zero, execList_fullTurn minus_ne_neutral zero⟩

/-- Two detents and one `DISP` while IDLE: the second tick replaces the first, and one move is made (R151). -/
theorem execList_two_detents_disp {d e : Sense} {s : State} (signed_d : d ≠ .neutral) (signed_e : e ≠ .neutral)
    (zero : s.acc = 0) (idle : s.emsState = .idle) :
    execList ((fullTurn d s.prev).map (qedgeOf s.params) ++ (fullTurn e s.prev).map (qedgeOf s.params) ++ [.disp]) s =
      .next (dispatchTick (clearPend .tick (withTick e (withTick d s)))) := by
  have second : execList ((fullTurn e s.prev).map (qedgeOf s.params)) (withTick d s) =
      .next (withTick e (withTick d s)) := execList_fullTurn (s := withTick d s) signed_e rfl
  have move : exec .disp (withTick e (withTick d s)) =
      .next (dispatchTick (clearPend .tick (withTick e (withTick d s)))) :=
    execDisp_eq_next.mpr ⟨rfl, (if_pos idle).symm⟩
  rw [List.append_assoc, execList_append _ _ _ _ (execList_fullTurn signed_d zero), execList_append _ _ _ _ second,
    execList_cons_of_next [] move, execList]

/-- Settles O18: each of the four runs ends with the one move of the second tick. -/
theorem twoDetentsBeforeDispGiveOneMove : Obligations.TwoDetentsBeforeDispGiveOneMove := by
  intro s zero _ idle
  rw [positiveCycle_eq, negativeCycle_eq]
  refine ⟨⟨_, execList_two_detents_disp plus_ne_neutral plus_ne_neutral zero idle, ?_⟩,
    ⟨_, execList_two_detents_disp minus_ne_neutral minus_ne_neutral zero idle, ?_⟩,
    ⟨_, execList_two_detents_disp plus_ne_neutral minus_ne_neutral zero idle, ?_⟩,
    ⟨_, execList_two_detents_disp minus_ne_neutral plus_ne_neutral zero idle, ?_⟩⟩
  all_goals exact ⟨rfl, rfl, rfl, rfl, rfl, rfl⟩

end Sys2Proof.Machine
end

section
/-!
PROOFS. The button scanner (41_button_scanner.md). First the whole of `SCAN` in closed form, for each interlock state
(R172 to R179), and the events of its press edges; then what a `SCAN` makes of one slot (R180); then the statements.
-/

namespace Sys2Proof.Machine

/-! ## The masks of a snapshot -/

theorem and_buttonField (r : BitVec 16) : r &&& 0x0FFF = curMask r := by
  refine BitVec.eq_of_getLsbD_eq fun i _ => ?_
  rw [BitVec.getLsbD_and, getLsbD_curMask, Bool.and_comm]
  exact congrArg (· && r.getLsbD i) (getLsbD_buttonField i)

/-- The snapshot may be masked to the button bits last, for only those bits of it matter to the press edges (R95). -/
theorem curMask_and_not (old r : BitVec 16) : curMask (old &&& ~~~r) = pressEdges old r := by
  refine BitVec.eq_of_getLsbD_eq fun i hi => ?_
  rw [getLsbD_curMask, getLsbD_pressEdges, BitVec.getLsbD_and, BitVec.getLsbD_not]
  simp [hi, Bool.and_assoc]

/-- Once the levels of a snapshot are stored, the same snapshot holds no press edge (R174, R178). -/
theorem pressEdges_curMask (r : BitVec 16) : pressEdges (curMask r) r = 0#16 := by
  refine BitVec.eq_of_getLsbD_eq fun i _ => ?_
  rw [getLsbD_pressEdges, getLsbD_curMask]
  cases r.getLsbD i <;> simp

/-- The slots with a press edge, in ascending order (R174, R180). -/
def edgeSlots (old r : BitVec 16) : List (Fin 12) :=
  Config.slotNumbers.filter fun i => (pressEdges old r).getLsbD i.val

/-- A slot stands among the press edges once or not at all. -/
theorem count_edgeSlots (old r : BitVec 16) (i : Fin 12) :
    (edgeSlots old r).count i = ((pressEdges old r).getLsbD i.val).toNat := by
  cases h : (pressEdges old r).getLsbD i.val with
  | true => exact List.count_eq_one_of_mem (slotNumbers_nodup.filter _) (List.mem_filter.mpr ⟨mem_slotNumbers i, h⟩)
  | false => exact List.count_eq_zero.mpr fun mem => Bool.false_ne_true (h.symm.trans (List.mem_filter.mp mem).2)

/-! ## The events of the press edges -/

theorem serialLines_fires (p : Params) (bit : Fin 12 → Bool) (slots : List (Fin 12)) :
    (serialLines (slots.flatMap fun i => fireEvents p i (bit i))).length = slots.length := by
  induction slots with
  | nil => rfl
  | cons i rest ih =>
    rw [List.flatMap_cons, serialLines_append, List.length_append, ih, List.length_cons, Nat.add_comm]
    rfl

theorem count_warn_fires (p : Params) (bit : Fin 12 → Bool) (slots : List (Fin 12)) :
    (slots.flatMap fun i => fireEvents p i (bit i)).count .warn = 0 := by
  simp [List.count_eq_zero, fireEvents]

/-- Each fire of slot `i` shows its label once, in the variant its toggle bit selects (R176). -/
theorem count_fired_fires (p : Params) (bit : Fin 12 → Bool) (slots : List (Fin 12)) (i : Fin 12) (v : Variant) :
    (slots.flatMap fun j => fireEvents p j (bit j)).count (.fired i v) =
      if v = variantOf (bit i) then slots.count i else 0 := by
  induction slots with
  | nil => simp
  | cons j rest ih =>
    rw [List.flatMap_cons, List.count_append, ih]
    by_cases hj : j = i
    · subst hj
      by_cases hv : v = variantOf (bit j)
      · subst hv; simp [fireEvents, Nat.add_comm]
      · simp [fireEvents, hv, Ne.symm hv]
    · simp [fireEvents, hj]

theorem serialLines_warns (slots : List (Fin 12)) : serialLines (slots.map fun _ => Event.warn) = [] := by
  induction slots with
  | nil => rfl
  | cons i rest ih => exact ih

/-! ## The whole of SCAN (R172) -/

/-- While ENGAGED each press edge gives a warning, and unit S takes only the feed and the levels (R177). -/
theorem scanBody_engaged {r : BitVec 16} {s : State} (engaged : s.emsState = .engaged) :
    scanBody r s =
      { s with
        feed := feedDecode s.params r, btnMask := curMask r,
        out := s.out ++ (edgeSlots s.btnMask r).map fun _ => Event.warn } := by
  have read : (s.emsState == .engaged) = true := by rw [engaged]; rfl
  rw [scanBody_eq, read, handlePresses_engaged]
  rfl

/-- While IDLE each press edge fires its slot, with the toggle bit the slot had before the scan (R176). -/
theorem scanBody_idle {r : BitVec 16} {s : State} (idle : s.emsState = .idle) :
    scanBody r s =
      { s with
        feed := feedDecode s.params r, btnMask := curMask r,
        out := s.out ++ (edgeSlots s.btnMask r).flatMap fun i => fireEvents s.params i s.toggle[i.val],
        toggle := s.toggle ^^^ (pressEdges s.btnMask r).setWidth 12,
        ghost := { s.ghost with
          fires := Vector.ofFn fun i : Fin 12 =>
            s.ghost.fires[i] + ((pressEdges s.btnMask r).getLsbD i.val).toNat } } := by
  obtain ⟨toggle, fires, run, toggled, fired⟩ := handlePresses_idle (pressEdges s.btnMask r) slotNumbers_nodup
    (writeFeed (feedDecode s.params r) s)
  have toggle_eq : toggle = s.toggle ^^^ (pressEdges s.btnMask r).setWidth 12 := by
    refine BitVec.eq_of_getElem_eq fun j hj => ?_
    rw [toggled ⟨j, hj⟩, BitVec.getElem_xor, BitVec.getElem_setWidth]
    cases (pressEdges s.btnMask r).getLsbD j <;> simp [mem_slotNumbers]
  have fires_eq : fires = Vector.ofFn fun i : Fin 12 =>
      s.ghost.fires[i] + ((pressEdges s.btnMask r).getLsbD i.val).toNat := by
    refine Vector.ext fun j hj => ?_
    rw [Vector.getElem_ofFn]
    refine (fired ⟨j, hj⟩).trans ?_
    cases (pressEdges s.btnMask r).getLsbD j <;> simp [mem_slotNumbers]
  have read : (s.emsState == .engaged) = false := by rw [idle]; rfl
  rw [scanBody_eq, read, run, toggle_eq, fires_eq]
  rfl

/-- Without a press edge `SCAN` writes only the feed and the levels, in either interlock state. -/
theorem scanBody_of_no_edge {r : BitVec 16} {s : State} (quiet : pressEdges s.btnMask r = 0#16) :
    scanBody r s = { s with feed := feedDecode s.params r, btnMask := curMask r } := by
  rw [scanBody_eq, quiet]
  simp [handlePresses, writeFeed, writeLevels]

theorem exec_scan_of_pend {s : State} (r : BitVec 16) (pend : s.scanPend = true) :
    exec (.scan r) s = .next (scanBody r (clearPend .scan s)) :=
  execScan_eq_next.mpr ⟨pend, rfl⟩

theorem exec_scan_of_clear {s : State} (r : BitVec 16) (clear : s.scanPend = false) :
    exec (.scan r) s = .refused .scanNotEnabled :=
  if_neg (by rw [pending_scan, clear]; exact Bool.false_ne_true)

/-- `PRESS r` (R108) runs from every state: its `XCHG` enables its `SCAN`. -/
theorem execList_press (r : BitVec 16) (s : State) :
    execList (Instr.press r) s = .next (scanBody r (clearPend .scan s)) := rfl

/-! ## One slot of a SCAN (R180) -/

/-- `SCAN r` fires slot `i`: a press edge while IDLE (R174, R176). -/
def firesSlot (r : BitVec 16) (i : Fin 12) (s : State) : Bool :=
  s.emsState == .idle && (s.btnMask.getLsbD i.val && !r.getLsbD i.val)

/-- What a `SCAN r` from `s` to `t` makes of slot `i`. -/
structure LaneStep (r : BitVec 16) (i : Fin 12) (s t : State) : Prop where
  interlock : t.emsState = s.emsState
  level : t.btnMask.getLsbD i.val = r.getLsbD i.val
  toggle : t.toggle[i.val] = (s.toggle[i.val] ^^ firesSlot r i s)
  fires : t.ghost.fires[i] = s.ghost.fires[i] + (firesSlot r i s).toNat
  shown : ∀ v, t.out.count (.fired i v) =
    s.out.count (.fired i v) + if v = variantOf s.toggle[i.val] then (firesSlot r i s).toNat else 0

theorem getLsbD_curMask_slot (r : BitVec 16) (i : Fin 12) : (curMask r).getLsbD i.val = r.getLsbD i.val := by
  simp

theorem getLsbD_pressEdges_slot (old r : BitVec 16) (i : Fin 12) :
    (pressEdges old r).getLsbD i.val = (old.getLsbD i.val && !r.getLsbD i.val) := by
  simp

theorem laneStep_scanBody (r : BitVec 16) (i : Fin 12) (s : State) : LaneStep r i s (scanBody r s) := by
  cases state : s.emsState with
  | engaged =>
    have quiet : firesSlot r i s = false := by simp [firesSlot, state]
    rw [scanBody_engaged state]
    refine ⟨rfl, getLsbD_curMask_slot r i, by simp [quiet], by simp [quiet], fun v => ?_⟩
    simp [quiet, List.count_append, List.count_eq_zero]
  | idle =>
    have edge : firesSlot r i s = (pressEdges s.btnMask r).getLsbD i.val := by
      rw [getLsbD_pressEdges_slot, firesSlot, state]; rfl
    rw [scanBody_idle state]
    refine ⟨rfl, getLsbD_curMask_slot r i, ?_, ?_, fun v => ?_⟩
    · rw [edge, BitVec.getElem_xor, BitVec.getElem_setWidth]
    · rw [edge]; simp only [Fin.getElem_fin, Vector.getElem_ofFn]
    · rw [edge, List.count_append, count_fired_fires, count_edgeSlots]

/-- A slot's part of a `SCAN` does not read the flag that the `SCAN` clears first. -/
theorem laneStep_scan (r : BitVec 16) (i : Fin 12) (s : State) :
    LaneStep r i s (scanBody r (clearPend .scan s)) := by
  obtain ⟨interlock, level, toggle, fires, shown⟩ := laneStep_scanBody r i (clearPend .scan s)
  exact ⟨interlock, level, toggle, fires, shown⟩

theorem laneStep_of_exec {r : BitVec 16} {s t : State} (i : Fin 12) (h : exec (.scan r) s = .next t) :
    LaneStep r i s t := by
  obtain ⟨-, rfl⟩ := execScan_eq_next.mp h
  exact laneStep_scan r i s

theorem exists_press (r : BitVec 16) (i : Fin 12) (s : State) :
    ∃ t, execList (Instr.press r) s = .next t ∧ LaneStep r i s t :=
  ⟨_, execList_press r s, laneStep_scan r i s⟩

/-! ## The statements of unit S -/

/-- The feed decode of the pseudocode of R96, which compares levels as truth values. -/
theorem feedDecode_eq (p : Params) (r : BitVec 16) :
    feedDecode p r =
      if r.getLsbD p.feedBitFull.val == p.feedActiveLevel then .full
      else if r.getLsbD p.feedBitMilli.val == p.feedActiveLevel then .milli
      else if r.getLsbD p.feedBitMicro.val == p.feedActiveLevel then .micro else .nano := by
  simp only [feedDecode, beq_iff_eq]

theorem fireEvents_eq (p : Params) (i : Fin 12) (bit : Bool) :
    fireEvents p i bit =
      if bit then [.ser ((p.slots[i]).commandOff ++ p.newline), .fired i .off]
      else [.ser ((p.slots[i]).commandOn ++ p.newline), .fired i .on] := by
  cases bit <;> rfl

/-- Settles O20: the closed form of the body in each interlock state, with the masks and the feed decode written out. -/
theorem scanHandlesEveryPressEdge : Obligations.ScanHandlesEveryPressEdge := by
  intro s r
  refine ⟨exec_scan_of_clear r, fun pend => ?_, ?_⟩
  · rw [exec_scan_of_pend r pend]
    simp only [and_buttonField, curMask_and_not, ← feedDecode_eq, ← fireEvents_eq]
    cases state : s.emsState with
    | engaged => rw [scanBody_engaged (s := clearPend .scan s) state, if_pos rfl, ← state]; rfl
    | idle => rw [scanBody_idle (s := clearPend .scan s) state, if_neg (by decide), ← state]; rfl
  · obtain ⟨-, -, -, scan, -⟩ := encodingsAreTheRulesWords
    exact scan r

/-- Settles O21: the events of the closed form, counted. -/
theorem scanCountsItsEvents : Obligations.ScanCountsItsEvents := by
  intro s t r h edges
  obtain ⟨-, rfl⟩ := execScan_eq_next.mp h
  constructor
  · intro idle
    rw [scanBody_idle (s := clearPend .scan s) idle]
    refine ⟨?_, ?_, rfl⟩
    · rw [serialLines_append, List.length_append, serialLines_fires]; rfl
    · rw [List.count_append, count_warn_fires]; rfl
  · intro engaged
    rw [scanBody_engaged (s := clearPend .scan s) engaged]
    refine ⟨?_, ?_, rfl⟩
    · rw [serialLines_append, serialLines_warns, List.append_nil]; rfl
    · rw [List.count_append, List.map_const', List.count_replicate_self]; rfl

/-- Settles O22: a slot whose stored level is low has no press edge, and after a `SCAN` no slot has one in the same
snapshot. -/
theorem heldButtonDoesNothing : Obligations.HeldButtonDoesNothing := by
  refine ⟨fun s t r i h low held => ?_, fun s t r h => ?_⟩
  · have quiet : firesSlot r i s = false := by simp [firesSlot, held]
    obtain ⟨-, level, toggle, fires, shown⟩ := laneStep_of_exec i h
    simp only [quiet, Bool.xor_false, Bool.toNat_false, Nat.add_zero, ite_self] at toggle fires shown
    exact ⟨toggle, fires, level.trans low, shown⟩
  · obtain ⟨-, rfl⟩ := execScan_eq_next.mp h
    obtain ⟨es, toggle, fires, body⟩ := scanBody_frame r (clearPend .scan s)
    rw [body, execList_press, scanBody_of_no_edge (pressEdges_curMask r)]
    rfl

/-- Settles O23: `LaneStep` says what becomes of the slot in terms of the values the two states share. -/
theorem slotsAreIndependentLanes : Obligations.SlotsAreIndependentLanes := by
  intro s t s' t' r q i mask level toggle interlock hs ht
  have fire : firesSlot r i s = firesSlot q i t := by rw [firesSlot, firesSlot, mask, level, interlock]
  have ls := laneStep_of_exec i hs
  have lt := laneStep_of_exec i ht
  refine ⟨?_, ?_, ?_, fun v => ?_⟩
  · rw [ls.level, lt.level, level]
  · rw [ls.toggle, lt.toggle, toggle, fire]
  · rw [ls.fires, lt.fires, fire, Nat.add_sub_cancel_left, Nat.add_sub_cancel_left]
  · rw [ls.shown, lt.shown, toggle, fire, Nat.add_sub_cancel_left, Nat.add_sub_cancel_left]

/-- Settles O24: the first and the third `SCAN` fire the slot, the second does not. -/
theorem twoPressesRestoreTheToggle : Obligations.TwoPressesRestoreTheToggle := by
  intro s i down up idle released hdown hup
  obtain ⟨t₁, run₁, lane₁⟩ := exists_press down i s
  obtain ⟨t₂, run₂, lane₂⟩ := exists_press up i t₁
  obtain ⟨t₃, run₃, lane₃⟩ := exists_press down i t₂
  have fire₁ : firesSlot down i s = true := by simp [firesSlot, idle, released, hdown]
  have quiet₂ : firesSlot up i t₁ = false := by simp [firesSlot, hup]
  have fire₃ : firesSlot down i t₂ = true := by
    simp [firesSlot, lane₂.interlock, lane₁.interlock, idle, lane₂.level, hup, hdown]
  refine ⟨t₃, ?_, ?_, ?_⟩
  · rw [List.append_assoc, execList_append _ _ _ _ run₁, execList_append _ _ _ _ run₂, run₃]
  · rw [lane₃.toggle, lane₂.toggle, lane₁.toggle, fire₁, quiet₂, fire₃]; simp
  · rw [lane₃.fires, lane₂.fires, lane₁.fires, fire₁, quiet₂, fire₃]; rfl

/-- Settles O19: a wake of a flag that is set changes nothing, and the one `SCAN` clears it. -/
theorem xchgOnlySetsScanPend : Obligations.XchgOnlySetsScanPend := by
  refine ⟨fun s => rfl, fun s pend => ?_, fun s r => ?_, rfl⟩
  · have same : wake .scan s = s := by rw [wake, ← pend]
    exact congrArg Host.Outcome.next same
  · exact ⟨scanBody r (clearPend .scan s), rfl, scanBody_scanPend r _⟩

end Sys2Proof.Machine
end

section
/-!
PROOFS. The safety interlock (42_safety_interlock.md). First the two operations of unit E, and what an accepted
transition does under R42 (d); then the inversion of `exec` the statements turn on: an operation accepts a transition,
or it shows no banner and, while ENGAGED, sends and moves nothing; then the statements.
-/

namespace Sys2Proof.Machine

/-! ## EMSEDGE and EMSCHK (R200 to R206) -/

theorem exec_emsedge (lvl : Bool) (s : State) :
    exec (.emsedge lvl) s =
      .next (if lvl ≠ s.emsLast ∧ guardPassed s.now s.emsLastTs = true then wakeInterlock s else s) := rfl

theorem exec_emschk_of_clear {s : State} (lvl : Bool) (clear : s.emsPend = false) :
    exec (.emschk lvl) s = .refused .emschkNotEnabled :=
  if_neg (by rw [pending_ems, clear]; exact Bool.false_ne_true)

theorem exec_emschk_of_bounce {lvl : Bool} {s : State} (pend : s.emsPend = true) (stable : lvl = s.emsLast) :
    exec (.emschk lvl) s = .next (clearPend .ems s) :=
  execEmschk_eq_next.mpr ⟨pend, (if_neg (not_not_intro stable)).symm⟩

theorem exec_emschk_of_change {lvl : Bool} {s : State} (pend : s.emsPend = true) (changed : lvl ≠ s.emsLast) :
    exec (.emschk lvl) s = .next (acceptTransition lvl (clearPend .ems s)) :=
  execEmschk_eq_next.mpr ⟨pend, (if_pos changed).symm⟩

/-- An `EMSCHK` that runs accepts the transition its level confirms, or drops a bounce (R202, R206). -/
theorem exec_emschk_next_cases {lvl : Bool} {s t : State} (h : exec (.emschk lvl) s = .next t) :
    (lvl ≠ s.emsLast ∧ t = acceptTransition lvl (clearPend .ems s)) ∨ (lvl = s.emsLast ∧ t = clearPend .ems s) := by
  obtain ⟨-, rfl⟩ := execEmschk_eq_next.mp h
  split
  next changed => exact .inl ⟨changed, rfl⟩
  next stable => exact .inr ⟨not_not.mp stable, rfl⟩

@[simp] theorem acceptTransition_emsState (lvl : Bool) (s : State) :
    (acceptTransition lvl s).emsState = interlockOf lvl := by
  cases lvl <;> rfl

/-- R42 (d) read as an equation: the interlock state is the one of the last accepted level. -/
theorem emsState_eq_interlockOf {s : State} (inv : StateInv s) : s.emsState = interlockOf s.emsLast := by
  obtain ⟨-, -, -, level⟩ := inv
  cases last : s.emsLast with
  | true => exact level.mp last
  | false =>
    cases state : s.emsState with
    | idle => exact absurd (level.mpr state) (by simp [last])
    | engaged => rfl

theorem interlockOf_injective : Function.Injective interlockOf := by
  unfold Function.Injective
  decide

/-- An accepted transition changes the interlock state (R202). -/
theorem interlockOf_ne_emsState {lvl : Bool} {s : State} (inv : StateInv s) (changed : lvl ≠ s.emsLast) :
    interlockOf lvl ≠ s.emsState := by
  rw [emsState_eq_interlockOf inv]
  exact interlockOf_injective.ne changed

/-! ## What an operation does to the interlock and to the outputs (R207, R208) -/

/-- From `s` to `t` no transition is accepted, no banner shown, and while ENGAGED nothing is sent and nothing moved. -/
structure NoTransition (s t : State) : Prop where
  interlock : t.emsState = s.emsState
  banners : ∀ e, t.out.count (.ems e) = s.out.count (.ems e)
  sends : s.emsState = .engaged → serialLines t.out = serialLines s.out
  moves : s.emsState = .engaged → t.pos = s.pos

theorem noTransition_of_silent {s t : State} (interlock : t.emsState = s.emsState) (out : t.out = s.out)
    (pos : t.pos = s.pos) : NoTransition s t :=
  ⟨interlock, fun e => by rw [out], fun _ => by rw [out], fun _ => pos⟩

theorem count_ems_fires (p : Params) (bit : Fin 12 → Bool) (slots : List (Fin 12)) (e : Bool) :
    (slots.flatMap fun i => fireEvents p i (bit i)).count (.ems e) = 0 := by
  simp [List.count_eq_zero, fireEvents]

theorem count_ems_warns (slots : List (Fin 12)) (e : Bool) :
    (slots.map fun _ => Event.warn).count (.ems e) = 0 := by
  simp [List.count_eq_zero]

/-- `SCAN` only warns while ENGAGED (R177). -/
theorem noTransition_scanBody (r : BitVec 16) (s : State) : NoTransition s (scanBody r s) := by
  cases state : s.emsState with
  | engaged =>
    rw [scanBody_engaged state]
    refine ⟨rfl, fun e => ?_, fun _ => ?_, fun _ => rfl⟩
    · rw [List.count_append, count_ems_warns, Nat.add_zero]
    · rw [serialLines_append, serialLines_warns, List.append_nil]
  | idle =>
    have notEngaged : s.emsState ≠ .engaged := by rw [state]; decide
    rw [scanBody_idle state]
    refine ⟨rfl, fun e => ?_, fun engaged => absurd engaged notEngaged, fun engaged => absurd engaged notEngaged⟩
    rw [List.count_append, count_ems_fires, Nat.add_zero]

theorem noTransition_of_scan {r : BitVec 16} {s t : State} (h : exec (.scan r) s = .next t) : NoTransition s t := by
  obtain ⟨-, rfl⟩ := execScan_eq_next.mp h
  obtain ⟨interlock, banners, sends, moves⟩ := noTransition_scanBody r (clearPend .scan s)
  exact ⟨interlock, banners, sends, moves⟩

/-- `DISP` drops the tick while ENGAGED (R235). -/
theorem noTransition_of_disp {s t : State} (h : exec .disp s = .next t) : NoTransition s t := by
  obtain ⟨-, rfl⟩ := execDisp_eq_next.mp h
  split
  next idle =>
    have notEngaged : s.emsState ≠ .engaged := by rw [idle]; decide
    refine ⟨rfl, fun e => ?_, fun engaged => absurd engaged notEngaged, fun engaged => absurd engaged notEngaged⟩
    simp [dispatchTick]
  next => exact noTransition_of_silent rfl rfl rfl

theorem noTransition_of_refr {s t : State} (h : exec .refr s = .next t) : NoTransition s t := by
  cases h
  exact ⟨rfl, fun e => by simp, fun _ => by simp [serialLines_append, serialLines], fun _ => rfl⟩

/-- An operation other than `RST` is an `EMSCHK` that accepts a transition, or accepts none. -/
theorem exec_transition_cases {i : Instr} {s t : State} (h : exec i s = .next t) (hi : i ≠ .rst) :
    (∃ lvl, i = .emschk lvl ∧ lvl ≠ s.emsLast ∧ t = acceptTransition lvl (clearPend .ems s)) ∨ NoTransition s t := by
  cases writes_of_exec h hi with
  | emschk lvl =>
    obtain ⟨changed, accepted⟩ | ⟨-, dropped⟩ := exec_emschk_next_cases h
    · exact .inl ⟨lvl, rfl, changed, accepted⟩
    · rw [dropped]; exact .inr (noTransition_of_silent rfl rfl rfl)
  | scan => exact .inr (noTransition_of_scan h)
  | disp => exact .inr (noTransition_of_disp h)
  | refr => exact .inr (noTransition_of_refr h)
  | keep | count | commit | xchg | emsedge | axedge | tadv => exact .inr (noTransition_of_silent rfl rfl rfl)

/-! ## Runs -/

theorem execList_cons_eq_next {i : Instr} {l : List Instr} {s t : State} :
    execList (i :: l) s = .next t ↔ ∃ u, exec i s = .next u ∧ execList l u = .next t := by
  cases h : exec i s <;> simp [execList, h]

/-- What every operation of a kind keeps, every run of operations of that kind keeps. -/
theorem execList_keeps {allowed : Instr → Prop} {P : State → Prop}
    (keeps : ∀ {i s t}, allowed i → P s → exec i s = .next t → P t) {l : List Instr} {s t : State} (start : P s)
    (all : ∀ i ∈ l, allowed i) (run : execList l s = .next t) : P t := by
  induction l generalizing s with
  | nil => cases run; exact start
  | cons i rest ih =>
    obtain ⟨u, first, others⟩ := execList_cons_eq_next.mp run
    obtain ⟨head, tail⟩ := List.forall_mem_cons.mp all
    exact ih (keeps head start first) tail others

/-- Since `s` the interlock has stayed ENGAGED, and nothing was sent or moved (R207). -/
structure SilentSince (s u : State) : Prop where
  inv : StateInv u
  engaged : u.emsState = .engaged
  sent : serialLines u.out = serialLines s.out
  moved : u.pos = s.pos

/-- While ENGAGED the stable level is low, so only a released `EMSCHK` is a change (R206). -/
theorem silentSince_exec {i : Instr} {s u v : State} (allowed : i ≠ .rst ∧ i ≠ .emschk true)
    (silent : SilentSince s u) (h : exec i u = .next v) : SilentSince s v := by
  obtain ⟨inv, engaged, sent, moved⟩ := silent
  obtain ⟨notReset, notReleased⟩ := allowed
  obtain ⟨lvl, rfl, changed, -⟩ | quiet := exec_transition_cases h notReset
  · have ne : interlockOf lvl ≠ .engaged := engaged ▸ interlockOf_ne_emsState inv changed
    cases lvl with
    | false => exact absurd rfl ne
    | true => exact absurd rfl notReleased
  · exact ⟨stateInv_exec inv h, quiet.interlock.trans engaged, (quiet.sends engaged).trans sent,
      (quiet.moves engaged).trans moved⟩

/-! ## The statements of unit E -/

/-- Settles O30: every allowed operation keeps the silence since the start of the run. -/
theorem nothingIsSentWhileEngaged : Obligations.NothingIsSentWhileEngaged := by
  intro l s t inv engaged allowed run
  obtain ⟨-, engaged', sent, moved⟩ :=
    execList_keeps (P := SilentSince s) silentSince_exec ⟨inv, engaged, rfl, rfl⟩ allowed run
  exact ⟨engaged', sent, moved⟩

/-- Settles O27: the guard of R201 is the modular comparison, the bound included. -/
theorem emsedgeWakesAfterTheGuard : Obligations.EmsedgeWakesAfterTheGuard := by
  intro s lvl
  obtain ⟨-, -, -, -, emsedge, -⟩ := encodingsAreTheRulesWords
  refine ⟨?_, emsedge lvl⟩
  simp only [exec_emsedge, guardPassed_eq_true, wakeInterlock_eq]

/-- Settles O28: the flag decides whether it runs, and the stable level what the read confirms. -/
theorem emschkConfirmsOrDropsTheChange : Obligations.EmschkConfirmsOrDropsTheChange := by
  intro s lvl
  obtain ⟨-, -, -, -, -, emschk, -⟩ := encodingsAreTheRulesWords
  refine ⟨exec_emschk_of_clear lvl, exec_emschk_of_bounce, ?_, ?_, emschk lvl⟩
  · rintro pend last rfl
    rw [exec_emschk_of_change pend (by simp [last]), acceptTransition_low]
    rfl
  · rintro pend last rfl
    rw [exec_emschk_of_change pend (by simp [last]), acceptTransition_high]
    rfl

/-- Settles O29: an accepted transition changes the state and appends the events of its direction; without one the
state stays. -/
theorem oneCancelSequencePerEngagement : Obligations.OneCancelSequencePerEngagement := by
  intro i s t inv notReset h
  obtain ⟨lvl, rfl, changed, rfl⟩ | quiet := exec_transition_cases h notReset
  · have moved : (acceptTransition lvl (clearPend .ems s)).emsState ≠ s.emsState := by
      rw [acceptTransition_emsState]; exact interlockOf_ne_emsState inv changed
    refine ⟨fun same => absurd same moved, fun same => absurd same moved, fun _ => ⟨lvl, rfl⟩, ?_, ?_⟩
    · intro _ engages
      cases lvl with
      | false => rw [acceptTransition_low]; rfl
      | true => cases engages
    · intro _ releases
      cases lvl with
      | false => cases releases
      | true => rw [acceptTransition_high]; rfl
  · have same := quiet.interlock
    refine ⟨fun _ => quiet.banners, ?_, fun moved => absurd same moved, ?_, ?_⟩
    · rintro - lvl rfl
      obtain ⟨changed, rfl⟩ | ⟨-, rfl⟩ := exec_emschk_next_cases h
      · rw [acceptTransition_emsState] at same
        exact absurd same (interlockOf_ne_emsState inv changed)
      · rfl
    · intro idle engaged
      simp [idle, engaged] at same
    · intro engaged idle
      simp [idle, engaged] at same

end Sys2Proof.Machine
end

section
/-!
PROOFS. Axis selection, tick dispatch and the refresh (43_axis_dispatch_refresh.md). First the tick accounting, which
every operation keeps (R243); then what `AXEDGE` and `DISP` do in each of their cases (R230 to R238), and from these
rules the statements of units A and D; last the refresh (R240).
-/

namespace Sys2Proof.Machine

/-! ## The tick accounting (R243 c) -/

theorem ticksAccounted_resetAll (s : State) : TicksAccounted (resetAll s) := by
  rw [resetAll_eq]
  exact ticksAccounted_resetWith s.params

/-- A commit counts the tick it makes pending, and a dispatch counts one that was pending. -/
theorem Effect.ticksAccounted {s t : State} (e : Effect s t) (acct : TicksAccounted s) : TicksAccounted t := by
  have processed : s.ghost.nDisp ≤ s.ghost.nCommit := Nat.le_of_add_right_le acct
  cases e with
  | commit => exact Nat.succ_le_succ processed
  | dropTick => exact processed
  | dispatch pend =>
    have counted : s.ghost.nDisp + 1 ≤ s.ghost.nCommit := by simpa [TicksAccounted, pend] using acct
    exact counted
  | accept lvl => cases lvl <;> exact acct
  | keep | count | wakeScan | scan | wakeEms | dropEdge | select | refresh | advance => exact acct

theorem ticksAccounted_exec {i : Instr} {s t : State} (acct : TicksAccounted s) (h : exec i s = .next t) :
    TicksAccounted t := by
  obtain ⟨-, rfl⟩ | e := exec_next_cases h
  · exact ticksAccounted_resetAll s
  · exact e.ticksAccounted acct

/-- Settles O55: the step runs an operation on the state without its next stimulus, which the accounting does not read,
and every operation keeps the accounting. -/
theorem stepKeepsTheTickAccounting : Obligations.StepKeepsTheTickAccounting := by
  intro s t acct h
  obtain ⟨x, rest, i, -, -, hexec⟩ := step_eq_next.mp h
  have acctRest : TicksAccounted { s with stim := rest } := acct
  exact ticksAccounted_exec acctRest hexec

/-! ## AXEDGE (R230 to R232) -/

theorem exec_axedge_of_select {xn yn zn : Bool} {a : Axis} (s : State) (select : axisSelect xn yn zn = some a) :
    exec (.axedge xn yn zn) s = .next (acceptAxis a s) := by
  simp only [exec, execAxedge, select]

theorem exec_axedge_of_none {xn yn zn : Bool} (s : State) (noneLow : axisSelect xn yn zn = none) :
    exec (.axedge xn yn zn) s = .next s := by
  simp only [exec, execAxedge, noneLow]

/-- With some line low, an axis is selected, and its own line is low. -/
theorem exists_axisSelect_of_low {xn yn zn : Bool} (low : xn = false ∨ yn = false ∨ zn = false) :
    ∃ a, axisSelect xn yn zn = some a ∧ axisLine xn yn zn a = false := by
  cases select : axisSelect xn yn zn with
  | none =>
    obtain ⟨rfl, rfl, rfl⟩ := axisSelect_eq_none.mp select
    simp at low
  | some a => exact ⟨a, rfl, axisSelect_eq_some select⟩

/-- Settles O32: the axis that the choice gives has a low line, and without a low line there is no choice. -/
theorem axedgeAcceptsALowLine : Obligations.AxedgeAcceptsALowLine := by
  obtain ⟨-, -, -, -, -, -, words, -⟩ := encodingsAreTheRulesWords
  refine ⟨fun s xn yn zn low => ?_, fun s => exec_axedge_of_none s rfl, words⟩
  obtain ⟨a, select, line⟩ := exists_axisSelect_of_low low
  exact ⟨a, line, exec_axedge_of_select s select⟩

/-- Settles O33: the choice takes the first low line in the order X, Y, Z. -/
theorem axedgePriorityIsXThenYThenZ : Obligations.AxedgePriorityIsXThenYThenZ := by
  obtain ⟨-, -, -, -, -, -, words, -⟩ := encodingsAreTheRulesWords
  refine ⟨fun s => ⟨fun yn zn => ?_, fun zn => ?_, ?_, ?_⟩, words⟩
  · exact exec_axedge_of_select s rfl
  · exact exec_axedge_of_select s rfl
  · exact exec_axedge_of_select s rfl
  · exact exec_axedge_of_none s rfl

/-! ## DISP (R233 to R238) -/

theorem exec_disp_of_clear {s : State} (clear : s.tickPend = false) : exec .disp s = .refused .dispNotEnabled :=
  if_neg (by rw [pending_tick, clear]; exact Bool.false_ne_true)

theorem exec_disp_of_idle {s : State} (pend : s.tickPend = true) (idle : s.emsState = .idle) :
    exec .disp s = .next (dispatchTick (clearPend .tick s)) :=
  execDisp_eq_next.mpr ⟨pend, (if_pos idle).symm⟩

theorem exec_disp_of_engaged {s : State} (pend : s.tickPend = true) (engaged : s.emsState = .engaged) :
    exec .disp s = .next (clearPend .tick s) := by
  have notIdle : s.emsState ≠ .idle := by rw [engaged]; decide
  exact execDisp_eq_next.mpr ⟨pend, (if_neg notIdle).symm⟩

/-- A tick with a direction reads no free SIGN character (R22, R234). -/
theorem dispatchTick_of_signed {s : State} (signed : s.dir ≠ .neutral) :
    dispatchTick s = { s with
      pos := movePosition s.axis (senseInt s.dir * feedMilli s.feed) s.pos, dispDir := s.dir,
      out := s.out ++ [.ser (moveLine s.params s.axis (signChar s.freeIx s.dir) s.feed)],
      ghost := { s.ghost with nDisp := s.ghost.nDisp + 1 } } := by
  rw [dispatchTick, nextFreeIx_of_ne_neutral signed]
  rfl

/-- Settles O35: the flag decides whether it runs, the interlock whether it moves, and the direction its sign. -/
theorem dispMovesTheSelectedAxis : Obligations.DispMovesTheSelectedAxis := by
  refine ⟨fun s => exec_disp_of_clear, fun s sign pend idle dir => ?_, fun s => exec_disp_of_engaged, rfl⟩
  obtain ⟨signed, rfl⟩ : s.dir ≠ .neutral ∧ signChar s.freeIx s.dir = sign := by
    obtain ⟨plus, rfl⟩ | ⟨minus, rfl⟩ := dir
    · rw [plus]; exact ⟨plus_ne_neutral, rfl⟩
    · rw [minus]; exact ⟨minus_ne_neutral, rfl⟩
  rw [exec_disp_of_idle pend idle, dispatchTick_of_signed (s := clearPend .tick s) signed]
  rfl

/-! ## How far a tick moves (R237) -/

/-- A processed tick adds the signed feed to the selected axis and nothing to the others. -/
theorem posOf_dispatchTick (s : State) (a : Axis) :
    posOf (dispatchTick s).pos a = posOf s.pos a + if a = s.axis then senseInt s.dir * feedMilli s.feed else 0 :=
  posOf_movePosition s.axis a _ s.pos

theorem feedMilli_pos (f : Feed) : 0 < feedMilli f := by
  cases f <;> decide

theorem natAbs_signedFeed {d : Sense} (signed : d ≠ .neutral) (f : Feed) :
    (senseInt d * feedMilli f).natAbs = (feedMilli f).natAbs := by
  obtain unit | unit := senseInt_of_ne_neutral signed
  · rw [unit, Int.one_mul]
  · rw [unit, Int.neg_one_mul, Int.natAbs_neg]

theorem signedFeed_pos_iff (d : Sense) (f : Feed) : 0 < senseInt d * feedMilli f ↔ d = .plus := by
  have positive := feedMilli_pos f
  cases d with
  | neutral => simp [senseInt]
  | plus => simp [senseInt, positive]
  | minus => simp [senseInt, positive.le]

/-- Settles O36: the difference of the positions is the signed feed on the selected axis and 0 elsewhere. -/
theorem dispStepIsExactlyOneFeed : Obligations.DispStepIsExactlyOneFeed := by
  intro s t a h
  obtain ⟨pend, -⟩ := execDisp_eq_next.mp h
  have moved (idle : s.emsState = .idle) :
      posOf t.pos a = posOf s.pos a + if a = s.axis then senseInt s.dir * feedMilli s.feed else 0 := by
    rw [exec_disp_of_idle pend idle] at h
    cases h
    exact posOf_dispatchTick (clearPend .tick s) a
  refine ⟨fun engaged => ?_, fun idle other => ?_, fun idle selected signed => ?_⟩
  · rw [exec_disp_of_engaged pend engaged] at h
    cases h
    rfl
  · rw [moved idle, if_neg other, Int.add_zero]
  · rw [moved idle, if_pos selected, add_sub_cancel_left, natAbs_signedFeed signed]
    refine ⟨?_, signedFeed_pos_iff s.dir s.feed⟩
    cases s.feed <;> rfl

/-! ## What decides a tick is read at its dispatch (R235, R236) -/

/-- After an `AXEDGE` with a low line a pending tick moves the axis that `AXEDGE` accepted. -/
theorem execList_axedge_disp {xn yn zn : Bool} {a : Axis} {s : State} (select : axisSelect xn yn zn = some a)
    (pend : s.tickPend = true) (idle : s.emsState = .idle) :
    execList [.axedge xn yn zn, .disp] s = .next (dispatchTick (clearPend .tick (acceptAxis a s))) := by
  have move := exec_disp_of_idle (s := acceptAxis a s) pend idle
  rw [execList_cons_of_next _ (exec_axedge_of_select s select), execList_cons_of_next [] move, execList]

/-- Settles O37: the `SCAN` has written the feed and the `AXEDGE` the axis before the `DISP` reads them. -/
theorem tickUsesTheAxisAndFeedOfItsDispatch : Obligations.TickUsesTheAxisAndFeedOfItsDispatch := by
  intro s r xn yn zn pend idle low
  obtain ⟨a, select, line⟩ := exists_axisSelect_of_low low
  obtain ⟨es, toggle, fires, body⟩ := scanBody_frame r (clearPend .scan s)
  have press := execList_press r s
  rw [body] at press
  rw [execList_append _ _ _ _ press]
  exact ⟨a, _, line, execList_axedge_disp select pend idle, rfl, rfl, rfl, rfl⟩

/-- A tick pending at a release is processed by the `DISP` after it. -/
theorem execList_release_disp {s : State} (tick : s.tickPend = true) (ems : s.emsPend = true)
    (low : s.emsLast = false) :
    execList [.emschk true, .disp] s =
      .next (dispatchTick (clearPend .tick (acceptTransition true (clearPend .ems s)))) := by
  have release := exec_emschk_of_change (lvl := true) ems (by simp [low])
  have disp := exec_disp_of_idle (s := acceptTransition true (clearPend .ems s)) tick rfl
  rw [execList_cons_of_next _ release, execList_cons_of_next [] disp, execList]

/-- A tick pending when the interlock engages is dropped by the `DISP` after it. -/
theorem execList_engage_disp {s : State} (tick : s.tickPend = true) (ems : s.emsPend = true)
    (high : s.emsLast = true) :
    execList [.emschk false, .disp] s = .next (clearPend .tick (acceptTransition false (clearPend .ems s))) := by
  have engage := exec_emschk_of_change (lvl := false) ems (by simp [high])
  have disp := exec_disp_of_engaged (s := acceptTransition false (clearPend .ems s)) tick rfl
  rw [execList_cons_of_next _ engage, execList_cons_of_next [] disp, execList]

/-- Settles O38: the `EMSCHK` has written the interlock state before the `DISP` reads it. -/
theorem pendingTickMeetsTheInterlockOfItsDispatch : Obligations.PendingTickMeetsTheInterlockOfItsDispatch := by
  refine ⟨fun s => exec_disp_of_engaged, fun s tick ems _ low => ?_, fun s tick ems _ high => ?_⟩
  · refine ⟨_, execList_release_disp tick ems low, ?_⟩
    rw [acceptTransition_high]
    exact ⟨rfl, rfl, by simp [dispatchTick, serialLines_append, serialLines]⟩
  · refine ⟨_, execList_engage_disp tick ems high, ?_⟩
    rw [acceptTransition_low]
    exact ⟨rfl, rfl, rfl⟩

/-! ## REFR (R240) -/

/-- Settles O41: the frame reads the state, and only the trace is written. -/
theorem refrAppendsOneFrame : Obligations.RefrAppendsOneFrame :=
  ⟨fun _ => rfl, rfl⟩

end Sys2Proof.Machine
end

section
/-!
PROOFS. Contexts, interrupts and time (60_exceptions.md). An enabled operation runs and any other is refused (R260);
the interrupt operations of one unit write only that unit's part of the state and read nothing that another unit's
interrupt operations write, so that those of two units commute (R265); last `TADV` (R269).
-/

namespace Sys2Proof.Machine

/-! ## Enabling (R260, R262) -/

theorem exists_exec_axedge (xn yn zn : Bool) (s : State) : ∃ t, exec (.axedge xn yn zn) s = .next t := by
  cases select : axisSelect xn yn zn with
  | some a => exact ⟨acceptAxis a s, exec_axedge_of_select s select⟩
  | none => exact ⟨s, exec_axedge_of_none s select⟩

/-- The flag of a task operation and the `PREV` of a table entry are all that can stop an operation. -/
theorem exists_next_of_enabled {i : Instr} {s : State} (h : enabled i s = true) : ∃ t, exec i s = .next t := by
  cases i with
  | scan r => exact ⟨_, execScan_eq_next.mpr ⟨h, rfl⟩⟩
  | emschk lvl => exact ⟨_, execEmschk_eq_next.mpr ⟨h, rfl⟩⟩
  | disp => exact ⟨_, execDisp_eq_next.mpr ⟨h, rfl⟩⟩
  | axedge xn yn zn => exact exists_exec_axedge xn yn zn s
  | rst | qedge | xchg | emsedge | refr | tadv => exact ⟨_, rfl⟩
  | lut0 | lut1 | lut2 | lut3 | lut4 | lut5 | lut6 | lut7
  | lut8 | lut9 | lut10 | lut11 | lut12 | lut13 | lut14 | lut15 =>
    exact ⟨_, decodeEntry_eq_next.mpr ⟨of_decide_eq_true h, rfl⟩⟩

/-- Settles O46: the two cases of `enabled`, and a type of faults without a constructor. -/
theorem enabledRunsAndDisabledIsRefused : Obligations.EnabledRunsAndDisabledIsRefused :=
  ⟨fun _ _ => exists_next_of_enabled, fun _ _ => exec_refused_of_not_enabled, nofun⟩

/-! ## Interrupt operations of different units (R265) -/

/-- The writes that the interrupt operations of a unit make. -/
inductive UnitWrite : UnitName → (State → State) → Prop where
  /-- Nothing: an unchanged sample (R149), an edge the guard drops (R201), no low axis line (R232). -/
  | keep (u : UnitName) : UnitWrite u id
  /-- A changed sample that does not commit (R147). -/
  | count (smp : BitVec 2) (acc : BitVec 4) : UnitWrite .q fun s => { s with prev := smp, acc := acc }
  /-- A changed sample that commits a tick (R148). -/
  | commit (smp : BitVec 2) (d : Sense) : UnitWrite .q fun s => withTick d { s with prev := smp }
  /-- `XCHG` (R170). -/
  | wakeScan : UnitWrite .s (wake .scan)
  /-- `EMSEDGE` past the guard (R201). -/
  | wakeEms : UnitWrite .e wakeInterlock
  /-- `AXEDGE` with a low line (R230). -/
  | select (a : Axis) : UnitWrite .a (acceptAxis a)

theorem UnitWrite.comm {u v : UnitName} {f g : State → State} (hf : UnitWrite u f) (hg : UnitWrite v g) (ne : u ≠ v)
    (s : State) : f (g s) = g (f s) := by
  cases hf with
  | keep => rfl
  | count | commit =>
    cases hg with
    | count | commit => exact absurd rfl ne
    | keep | wakeScan | wakeEms | select => rfl
  | wakeScan =>
    cases hg with
    | wakeScan => exact absurd rfl ne
    | keep | count | commit | wakeEms | select => rfl
  | wakeEms =>
    cases hg with
    | wakeEms => exact absurd rfl ne
    | keep | count | commit | wakeScan | select => rfl
  | select =>
    cases hg with
    | select => exact absurd rfl ne
    | keep | count | commit | wakeScan | wakeEms => rfl

/-- The two states agree on what decides which write an interrupt operation of the unit makes: the parameters, `PREV`
and `ACC` for unit Q (R130), and the last accepted level, its time and `NOW` for unit E (R201). -/
def SameInputs (u : UnitName) (s t : State) : Prop :=
  match u with
  | .q => t.params = s.params ∧ t.prev = s.prev ∧ t.acc = s.acc
  | .e => t.emsLast = s.emsLast ∧ t.emsLastTs = s.emsLastTs ∧ t.now = s.now
  | .s | .a | .d | .refresh | .all | .time => True

theorem SameInputs.refl (u : UnitName) (s : State) : SameInputs u s s := by
  cases u with
  | q | e => exact ⟨rfl, rfl, rfl⟩
  | s | a | d | refresh | all | time => trivial

theorem SameInputs.symm {u : UnitName} {s t : State} (same : SameInputs u s t) : SameInputs u t s := by
  cases u with
  | q | e =>
    obtain ⟨h₁, h₂, h₃⟩ := same
    exact ⟨h₁.symm, h₂.symm, h₃.symm⟩
  | s | a | d | refresh | all | time => trivial

/-- No unit's interrupt operations write what decides another unit's. -/
theorem UnitWrite.sameInputs {u v : UnitName} {f : State → State} (hf : UnitWrite u f) (ne : u ≠ v) (s : State) :
    SameInputs v s (f s) := by
  cases v with
  | q =>
    cases hf with
    | count | commit => exact absurd rfl ne
    | keep | wakeScan | wakeEms | select => exact ⟨rfl, rfl, rfl⟩
  | e =>
    cases hf with
    | wakeEms => exact absurd rfl ne
    | keep | count | commit | wakeScan | select => exact ⟨rfl, rfl, rfl⟩
  | s | a | d | refresh | all | time => trivial

/-- `op` makes one and the same write of unit `u` in every state with the inputs of `s`. -/
def ActsLocally (u : UnitName) (s : State) (op : State → Host.Outcome State Fault Refusal) : Prop :=
  ∃ f, UnitWrite u f ∧ ∀ t, SameInputs u s t → op t = .next (f t)

theorem actsLocally_of_keep {u : UnitName} {s : State} {op : State → Host.Outcome State Fault Refusal}
    (h : ∀ t, SameInputs u s t → op t = .next t) : ActsLocally u s op :=
  ⟨id, .keep u, h⟩

theorem actsLocally_accumulate (smp : BitVec 2) (step : Int) (s : State) :
    ActsLocally .q s fun t => .next (accumulate smp step t) := by
  obtain ⟨sum, -⟩ | ⟨sum, -⟩ | ⟨below, above, -⟩ := accumulate_cases smp step s
  · refine ⟨_, .commit smp .plus, fun t ⟨_, _, acc⟩ => ?_⟩
    rw [← acc] at sum
    exact congrArg Host.Outcome.next (accumulate_commit smp plus_ne_neutral sum)
  · refine ⟨_, .commit smp .minus, fun t ⟨_, _, acc⟩ => ?_⟩
    rw [← acc] at sum
    exact congrArg Host.Outcome.next (accumulate_commit smp minus_ne_neutral sum)
  · refine ⟨_, .count smp (BitVec.ofInt 4 (s.acc.toInt + step)), fun t ⟨_, _, acc⟩ => ?_⟩
    rw [← acc] at below above ⊢
    exact congrArg Host.Outcome.next (accumulate_count smp below above)

theorem actsLocally_decodeEntry {frm smp : BitVec 2} {step : Int} {s t : State}
    (h : decodeEntry frm smp step s = .next t) : ActsLocally .q s (decodeEntry frm smp step) := by
  obtain ⟨form, -⟩ := decodeEntry_eq_next.mp h
  by_cases same : smp = frm
  · subst same
    exact actsLocally_of_keep fun u ⟨_, prev, _⟩ => decodeEntry_unchanged (prev.trans form)
  · obtain ⟨f, write, acts⟩ := actsLocally_accumulate smp step s
    refine ⟨f, write, fun u inputs => ?_⟩
    have ⟨_, prev, _⟩ := inputs
    rw [decodeEntry_changed (prev.trans form) same]
    exact acts u inputs

/-- `QEDGE` is the entry of the index it forms (R130). -/
theorem actsLocally_qedge (a b : Bool) (s : State) : ActsLocally .q s (exec (.qedge a b)) := by
  obtain ⟨f, write, acts⟩ := actsLocally_decodeEntry (decodeEntry_prev (sample s.params a b) s)
  refine ⟨f, write, fun t inputs => ?_⟩
  have ⟨params, prev, _⟩ := inputs
  rw [← acts t inputs, ← params, ← prev, decodeEntry_prev, exec_qedge]

theorem actsLocally_emsedge (lvl : Bool) (s : State) : ActsLocally .e s (exec (.emsedge lvl)) := by
  by_cases due : lvl ≠ s.emsLast ∧ guardPassed s.now s.emsLastTs = true
  · refine ⟨_, .wakeEms, fun t ⟨last, ts, now⟩ => ?_⟩
    rw [exec_emsedge, last, ts, now, if_pos due]
  · refine actsLocally_of_keep fun t ⟨last, ts, now⟩ => ?_
    rw [exec_emsedge, last, ts, now, if_neg due]

theorem actsLocally_axedge (xn yn zn : Bool) (s : State) : ActsLocally .a s (exec (.axedge xn yn zn)) := by
  cases select : axisSelect xn yn zn with
  | some a => exact ⟨_, .select a, fun t _ => exec_axedge_of_select t select⟩
  | none => exact actsLocally_of_keep fun t _ => exec_axedge_of_none t select

/-- An interrupt operation that runs writes its unit's part alone, by its unit's inputs alone. -/
theorem actsLocally_of_interrupt {i : Instr} {s t : State} (ctx : i.context = .interrupt) (h : exec i s = .next t) :
    ActsLocally i.unitName s (exec i) := by
  cases i with
  | qedge a b => exact actsLocally_qedge a b s
  | xchg => exact ⟨_, .wakeScan, fun _ _ => rfl⟩
  | emsedge lvl => exact actsLocally_emsedge lvl s
  | axedge xn yn zn => exact actsLocally_axedge xn yn zn s
  | rst | scan | emschk | disp | refr | tadv => cases ctx
  | lut0 | lut1 | lut2 | lut3 | lut4 | lut5 | lut6 | lut7
  | lut8 | lut9 | lut10 | lut11 | lut12 | lut13 | lut14 | lut15 => exact actsLocally_decodeEntry h

/-- Settles O49: each of the two operations makes the write it makes in the other order, for the other's write does not
touch its inputs; and the two writes commute. -/
theorem interruptsOfDifferentUnitsCommute : Obligations.InterruptsOfDifferentUnitsCommute := by
  intro i j s t hi hj ne run
  obtain ⟨u, first, run'⟩ := execList_cons_eq_next.mp run
  obtain ⟨v, second, done⟩ := execList_cons_eq_next.mp run'
  cases done
  obtain ⟨f, writeI, actsI⟩ := actsLocally_of_interrupt hi first
  obtain ⟨g, writeJ, actsJ⟩ := actsLocally_of_interrupt hj second
  obtain rfl : u = f s := by simpa [first] using actsI s (.refl _ s)
  obtain rfl : t = g (f s) := by simpa [second] using actsJ (f s) (.refl _ (f s))
  have secondFirst : exec j s = .next (g s) := actsJ s (writeI.sameInputs ne s).symm
  have firstSecond : exec i (g s) = .next (f (g s)) := actsI (g s) (writeJ.sameInputs ne.symm s)
  rw [execList_cons_of_next _ secondFirst, execList_cons_of_next [] firstSecond, execList, writeI.comm writeJ ne s]

/-! ## TADV (R269) -/

/-- A step has 28 bits and `NOW` has 32, so only the sum wraps. -/
theorem toNat_advance (now : BitVec 32) (d : BitVec 28) :
    (now + d.setWidth 32).toNat = (now.toNat + d.toNat) % 4294967296 := by
  rw [BitVec.toNat_add, BitVec.toNat_setWidth_of_le (by decide)]

/-- Settles O42: the new time is the sum in 32 bits. -/
theorem tadvAddsModuloTwoToThe32 : Obligations.TadvAddsModuloTwoToThe32 := by
  intro s d
  obtain ⟨-, -, -, -, -, -, -, -, -, words⟩ := encodingsAreTheRulesWords
  exact ⟨⟨s.now + d.setWidth 32, toNat_advance s.now d, rfl⟩, words d⟩

end Sys2Proof.Machine
end

section
/-!
PROOFS. Reset and hazards (70_reset_and_hazards.md). First the guard interval of R311: the time since the last
accepted transition as an invariant of a run, and from it the blind window; then the press that the interlock consumes
(R312); last `RST` and the state it leaves (R300, R301).
-/

namespace Sys2Proof.Machine

/-! ## The guard interval (R71, R201, R311) -/

/-- No edge waits for its `EMSCHK`, and at most `n` milliseconds have passed since the time in `EMS_LAST_TS`. -/
structure WithinGuard (n : Nat) (s : State) : Prop where
  clear : s.emsPend = false
  recent : (elapsedMs s.now s.emsLastTs).toNat ≤ n

theorem withinGuard_of_stamped {s : State} (clear : s.emsPend = false) (stamped : s.emsLastTs = s.now) :
    WithinGuard 0 s := by
  refine ⟨clear, ?_⟩
  rw [elapsedMs, stamped, BitVec.sub_self]
  exact Nat.le_refl 0

theorem withinGuard_resetAll (s : State) : WithinGuard 0 (resetAll s) :=
  withinGuard_of_stamped rfl rfl

theorem withinGuard_resetWith (p : Params) : WithinGuard 0 (State.resetWith p) :=
  withinGuard_of_stamped rfl rfl

/-- An accepted transition stamps the time and leaves no edge waiting (R202). -/
theorem withinGuard_acceptTransition (lvl : Bool) (s : State) :
    WithinGuard 0 (acceptTransition lvl (clearPend .ems s)) := by
  cases lvl with
  | false => rw [acceptTransition_low]; exact withinGuard_of_stamped rfl rfl
  | true => rw [acceptTransition_high]; exact withinGuard_of_stamped rfl rfl

/-- Time passes modulo 2^32, so a step of `d` milliseconds adds at most `d` to the time passed since the stamp. -/
theorem withinGuard_advanceTime {n : Nat} {s : State} (w : WithinGuard n s) (d : BitVec 28) :
    WithinGuard (n + d.toNat) (advanceTime d s) := by
  refine ⟨w.clear, ?_⟩
  have shifted : elapsedMs (s.now + d.setWidth 32) s.emsLastTs = elapsedMs s.now s.emsLastTs + d.setWidth 32 :=
    add_sub_right_comm s.now (d.setWidth 32) s.emsLastTs
  rw [advanceTime_now, advanceTime_emsLastTs, shifted, toNat_advance]
  exact (Nat.mod_le _ _).trans (Nat.add_le_add_right w.recent _)

/-- Below the 100 ms of R201 an `EMSEDGE` writes nothing, whatever its level. -/
theorem exec_emsedge_of_withinGuard {n : Nat} {s : State} (w : WithinGuard n s) (short : n < 100) (lvl : Bool) :
    exec (.emsedge lvl) s = .next s := by
  have guarded : guardPassed s.now s.emsLastTs = false :=
    decide_eq_false (Nat.not_le_of_lt (Nat.lt_of_le_of_lt w.recent short))
  rw [exec_emsedge, if_neg fun ⟨_, passed⟩ => Bool.false_ne_true (guarded.symm.trans passed)]

/-- In the window no `EMSEDGE` sets the flag that an `EMSCHK` needs, so the stamp stays and only time passes; a `RST`
starts the window anew. -/
theorem withinGuard_exec {i : Instr} {n : Nat} {s t : State} (w : WithinGuard n s) (short : n < 100)
    (h : exec i s = .next t) : WithinGuard (n + duration i) t := by
  by_cases reset : i = .rst
  · subst reset
    cases h
    exact ⟨rfl, (withinGuard_resetAll s).recent.trans (Nat.zero_le _)⟩
  · have ⟨clear, recent⟩ := w
    cases writes_of_exec h reset with
    | emsedge lvl =>
      rw [← Host.Outcome.next.inj ((exec_emsedge_of_withinGuard w short lvl).symm.trans h)]
      exact w
    | emschk lvl => exact nomatch (exec_emschk_of_clear lvl clear).symm.trans h
    | tadv d => exact withinGuard_advanceTime w d
    | keep | count | commit | xchg | scan | axedge | disp | refr => exact ⟨clear, Nat.le_add_right_of_le recent⟩

theorem withinGuard_execList {l : List Instr} {n : Nat} {s t : State} (w : WithinGuard n s)
    (short : n + runTime l < 100) (run : execList l s = .next t) : WithinGuard (n + runTime l) t := by
  induction l generalizing n s with
  | nil => cases run; exact w
  | cons i rest ih =>
    obtain ⟨u, first, others⟩ := execList_cons_eq_next.mp run
    rw [runTime_cons, ← Nat.add_assoc] at short ⊢
    exact ih (withinGuard_exec w (by omega) first) short others

/-- From a state that has just been stamped, every run of less than 100 ms stays blind to the EMS line (R311). -/
theorem blind_of_withinGuard {t : State} (w : WithinGuard 0 t) :
    (∀ (l : List Instr) (u : State), runTime l < 100 → execList l t = .next u →
      u.emsPend = false ∧ ∀ lvl, exec (.emsedge lvl) u = .next u) ∧
    (∀ (d : BitVec 28) (lvl : Bool), d.toNat < 100 →
      ∃ u, execList [.tadv d, .emsedge lvl] t = .next u ∧ u.emsPend = false) := by
  refine ⟨fun l u short run => ?_, fun d lvl short => ?_⟩
  · rw [← Nat.zero_add (runTime l)] at short
    have within := withinGuard_execList w short run
    exact ⟨within.clear, exec_emsedge_of_withinGuard within short⟩
  · rw [← Nat.zero_add d.toNat] at short
    have waited := withinGuard_advanceTime w d
    exact ⟨advanceTime d t, execList_cons_of_next [] (exec_emsedge_of_withinGuard waited short lvl), waited.clear⟩

/-- Settles O31: each of the three starts has just been stamped. -/
theorem guardIntervalIsABlindWindow : Obligations.GuardIntervalIsABlindWindow := by
  refine ⟨fun s t lvl h moved => ?_, fun s t h => ?_, fun p => blind_of_withinGuard (withinGuard_resetWith p)⟩
  · obtain ⟨-, rfl⟩ | ⟨-, rfl⟩ := exec_emschk_next_cases h
    · exact blind_of_withinGuard (withinGuard_acceptTransition lvl s)
    · exact absurd (clearPend_emsLast .ems s) moved
  · cases h
    exact blind_of_withinGuard (withinGuard_resetAll s)

/-! ## A press while ENGAGED (R177, R178, R312) -/

/-- What a `PRESS r` while ENGAGED leaves: the snapshot's feed and levels, and a warning for each press edge. -/
def afterWarnedPress (r : BitVec 16) (s : State) : State :=
  { s with
    scanPend := false, feed := feedDecode s.params r, btnMask := curMask r,
    out := s.out ++ (edgeSlots s.btnMask r).map fun _ => Event.warn }

theorem execList_press_of_engaged {r : BitVec 16} {s : State} (engaged : s.emsState = .engaged) :
    execList (Instr.press r) s = .next (afterWarnedPress r s) := by
  rw [execList_press, scanBody_engaged (s := clearPend .scan s) engaged]
  rfl

/-- The state after a warned press and the release that follows it (R204). -/
def afterRelease (r : BitVec 16) (s : State) : State :=
  acceptTransition true (clearPend .ems (afterWarnedPress r s))

theorem afterRelease_eq (r : BitVec 16) (s : State) :
    afterRelease r s = { afterWarnedPress r s with
      emsPend := false, emsLast := true, emsLastTs := s.now, emsState := .idle,
      out := (afterWarnedPress r s).out ++ [.ems false] } := by
  rw [afterRelease, acceptTransition_high]
  rfl

/-- The first press has stored the levels, so that the same snapshot holds no press edge after the release. -/
theorem execList_press_afterRelease (r : BitVec 16) (s : State) :
    execList (Instr.press r) (afterRelease r s) = .next (afterRelease r s) := by
  rw [execList_press, afterRelease_eq, scanBody_of_no_edge (pressEdges_curMask r)]
  rfl

theorem execList_press_release_press {r : BitVec 16} {s : State} (engaged : s.emsState = .engaged)
    (low : s.emsLast = false) (pend : s.emsPend = true) :
    execList (Instr.press r ++ [.emschk true] ++ Instr.press r) s = .next (afterRelease r s) := by
  have changed : true ≠ s.emsLast := by simp [low]
  have release : exec (.emschk true) (afterWarnedPress r s) = .next (afterRelease r s) :=
    exec_emschk_of_change pend changed
  rw [List.append_assoc, execList_append _ _ _ _ (execList_press_of_engaged engaged), List.singleton_append,
    execList_cons_of_next _ release, execList_press_afterRelease]

/-- The warnings and the green banner are no serial lines. -/
theorem serialLines_afterRelease (r : BitVec 16) (s : State) :
    serialLines (afterRelease r s).out = serialLines s.out := by
  have banner : serialLines [Event.ems false] = [] := rfl
  rw [afterRelease_eq, afterWarnedPress, serialLines_append, serialLines_append, serialLines_warns, banner,
    List.append_nil, List.append_nil]

/-- Settles O26: the first press only warns, and after the release the second finds no press edge. -/
theorem pressWhileEngagedIsConsumed : Obligations.PressWhileEngagedIsConsumed := by
  intro s r engaged low pend
  refine ⟨afterRelease r s, execList_press_release_press engaged low pend, ?_⟩
  rw [serialLines_afterRelease, and_buttonField, afterRelease_eq]
  exact ⟨rfl, rfl, rfl, rfl, rfl⟩

/-! ## RST (R300, R301) -/

theorem exec_rst (s : State) : exec .rst s = .next (resetAll s) := rfl

/-- Settles O43: the fields of the reset state, and the frame it shows. -/
theorem rstGivesTheResetState : Obligations.RstGivesTheResetState := by
  obtain ⟨frame, -⟩ := refrAppendsOneFrame
  obtain ⟨rst, -⟩ := encodingsAreTheRulesWords
  refine ⟨fun s => ⟨resetAll s, exec_rst s, ?_⟩, ?_, frame State.reset, rst⟩
  · exact ⟨rfl, rfl, rfl, rfl, rfl, rfl, rfl, rfl, rfl, rfl, rfl, rfl, rfl, rfl, rfl, rfl, rfl⟩
  · exact ⟨rfl, rfl, rfl, rfl, rfl, rfl⟩

/-- Settles O44: `RST` is the reset state of its parameters but for the rest of the run and the counter. -/
theorem rstKeepsTheModelsOwnFields : Obligations.RstKeepsTheModelsOwnFields := by
  have rst (s : State) :
      exec .rst s = .next { State.resetWith s.params with stim := s.stim, freeIx := s.freeIx } := by
    rw [exec_rst, resetAll_eq]
  refine ⟨rst, fun s t h => ⟨?_, ?_⟩, fun s defaults ended counter => ?_⟩
  · obtain ⟨params, -⟩ := parametersAreConstant _ _ _ h
    exact params
  · cases h
    rfl
  · rw [rst, defaults, ended, counter]
    rfl

/-- Settles O45: after `RST` the three flags are 0, which is all that the operations of R301 wait on. -/
theorem afterResetOnlyInterruptsRun : Obligations.AfterResetOnlyInterruptsRun := by
  intro s t h
  cases h
  have refused {i : Instr} (off : enabled i (resetAll s) = false) := exec_refused_of_not_enabled off
  have runs {i : Instr} (on : enabled i (resetAll s) = true) := exists_next_of_enabled on
  exact ⟨⟨rfl, rfl, rfl, rfl⟩, fun _ => refused rfl, fun _ => refused rfl, refused rfl,
    fun _ _ => runs rfl, runs rfl, fun _ => runs rfl, fun _ _ _ => runs rfl, runs rfl, fun _ => runs rfl⟩

end Sys2Proof.Machine
end
